-- ==== Sys2Proof/Word.lean ====
section
/-! DEFINITION. The two word types of the hardware (00_scope.md rules R4, R8): 8-bit data and 16-bit addresses, both
unsigned and wrapping. -/

namespace Sys2Proof

/-- A data byte: A, X, Y, SP, an operand byte, a memory byte (u8 of 00_scope.md section 8). -/
abbrev Byte := BitVec 8

/-- An address or the program counter (u16 of 00_scope.md section 8). -/
abbrev Addr := BitVec 16

end Sys2Proof
end

