-- ==== Sys2Proof/Syntax.lean ====
section
/-! DEFINITION. The instructions: one constructor per row of spec/opcode_table.json (30_encoding.md rule R55), named
by mnemonic and addressing mode. A constructor carries the operand bytes of its form (rules R50, R53): b is the one
operand byte, w the two-byte little-endian operand. The spec's Instruction value carries none (R61) and the resolver
reads them; the two readings agree because a step reads all operand bytes before it writes (R47). See log 5. -/

namespace Sys2Proof

/-- An instruction of the hardware, with its operand (rules R55, R57). -/
inductive Instr where
  -- Load and store (43_load_store.md)
  | ldaImm (b : Byte)
  | ldaZp (b : Byte)
  | ldaZpX (b : Byte)
  | ldaAbs (w : Addr)
  | ldaAbsX (w : Addr)
  | ldaAbsY (w : Addr)
  | ldaIndX (b : Byte)
  | ldaIndY (b : Byte)
  | ldxImm (b : Byte)
  | ldxZp (b : Byte)
  | ldxZpY (b : Byte)
  | ldxAbs (w : Addr)
  | ldxAbsY (w : Addr)
  | ldyImm (b : Byte)
  | ldyZp (b : Byte)
  | ldyZpX (b : Byte)
  | ldyAbs (w : Addr)
  | ldyAbsX (w : Addr)
  | staZp (b : Byte)
  | staZpX (b : Byte)
  | staAbs (w : Addr)
  | staAbsX (w : Addr)
  | staAbsY (w : Addr)
  | staIndX (b : Byte)
  | staIndY (b : Byte)
  | stxZp (b : Byte)
  | stxZpY (b : Byte)
  | stxAbs (w : Addr)
  | styZp (b : Byte)
  | styZpX (b : Byte)
  | styAbs (w : Addr)
  -- Register transfer (44_transfer.md)
  | tax
  | tay
  | txa
  | tya
  | tsx
  | txs
  -- Stack (45_stack.md)
  | pha
  | php
  | pla
  | plp
  -- Increment and decrement (46_incdec.md)
  | incZp (b : Byte)
  | incZpX (b : Byte)
  | incAbs (w : Addr)
  | incAbsX (w : Addr)
  | decZp (b : Byte)
  | decZpX (b : Byte)
  | decAbs (w : Addr)
  | decAbsX (w : Addr)
  | inx
  | iny
  | dex
  | dey
  -- Logical (47_logical.md)
  | andImm (b : Byte)
  | andZp (b : Byte)
  | andZpX (b : Byte)
  | andAbs (w : Addr)
  | andAbsX (w : Addr)
  | andAbsY (w : Addr)
  | andIndX (b : Byte)
  | andIndY (b : Byte)
  | oraImm (b : Byte)
  | oraZp (b : Byte)
  | oraZpX (b : Byte)
  | oraAbs (w : Addr)
  | oraAbsX (w : Addr)
  | oraAbsY (w : Addr)
  | oraIndX (b : Byte)
  | oraIndY (b : Byte)
  | eorImm (b : Byte)
  | eorZp (b : Byte)
  | eorZpX (b : Byte)
  | eorAbs (w : Addr)
  | eorAbsX (w : Addr)
  | eorAbsY (w : Addr)
  | eorIndX (b : Byte)
  | eorIndY (b : Byte)
  | bitZp (b : Byte)
  | bitAbs (w : Addr)
  -- Control transfer (48_control.md)
  | jsrAbs (w : Addr)
  | brk
  -- Status flags (49_flag_ops.md)
  | clc
  | cld
  | cli
  | clv
  | sec
  | sed
  | sei
deriving DecidableEq, Repr

end Sys2Proof
end

