-- ==== Sys2Proof/WellFormed.lean ====
section
/-! DEFINITION. Mnemonics, addressing modes and operand forms, and which (mnemonic, mode) pairs the executor implements
(30_encoding.md rules R52, R57). An `Instr` is well-formed by construction; the check refuses PAIRS, which is what the
decoder hands to the executor (rule R182). -/

namespace Sys2Proof

/-- The 35 mnemonics (00_scope.md rule R7). -/
inductive Mnemonic where
  | lda | ldx | ldy | sta | stx | sty
  | tax | tay | txa | tya | tsx | txs
  | pha | php | pla | plp
  | inc | dec | inx | iny | dex | dey
  | and | ora | eor | bit
  | jsr | brk
  | clc | cld | cli | clv | sec | sed | sei
deriving DecidableEq, Repr

/-- The 13 addressing-mode tags (41_addressing.md rule R85). The last three have no rule and no instruction (R96). -/
inductive Mode where
  | implicit | immediate | zeroPage | zeroPageX | zeroPageY | absolute | absoluteX | absoluteY
  | xIndexedIndirect | indirectYIndexed
  | accumulator | relative | indirect
deriving DecidableEq, Repr

/-- The operand forms that name a memory address, with their operand bytes (rules R88 to R95). -/
inductive AddrForm where
  | zeroPage (b : Byte)
  | zeroPageX (b : Byte)
  | zeroPageY (b : Byte)
  | absolute (w : Addr)
  | absoluteX (w : Addr)
  | absoluteY (w : Addr)
  | xIndexedIndirect (b : Byte)
  | indirectYIndexed (b : Byte)
deriving DecidableEq, Repr

/-- Where a read-type instruction takes its operand value: the operand byte itself (R87) or memory (R97). -/
inductive Source where
  | immediate (b : Byte)
  | memory (f : AddrForm)
deriving DecidableEq, Repr

/-- The operand of an instruction: none (R86), or a value or address source. -/
inductive Operand where
  | implicit
  | source (src : Source)
deriving DecidableEq, Repr

/-- The mode tag of an address form. -/
def AddrForm.mode : AddrForm → Mode
  | .zeroPage _ => .zeroPage
  | .zeroPageX _ => .zeroPageX
  | .zeroPageY _ => .zeroPageY
  | .absolute _ => .absolute
  | .absoluteX _ => .absoluteX
  | .absoluteY _ => .absoluteY
  | .xIndexedIndirect _ => .xIndexedIndirect
  | .indirectYIndexed _ => .indirectYIndexed

/-- The mode tag of an operand. -/
def Operand.mode : Operand → Mode
  | .implicit => .implicit
  | .source (.immediate _) => .immediate
  | .source (.memory f) => f.mode

/-- Operand bytes by mode (rule R52); the three tags without a rule have none. -/
def Mode.operandBytes : Mode → Option Nat
  | .implicit => some 0
  | .immediate | .zeroPage | .zeroPageX | .zeroPageY | .xIndexedIndirect | .indirectYIndexed => some 1
  | .absolute | .absoluteX | .absoluteY => some 2
  | .accumulator | .relative | .indirect => none

/-- `LegalPairs` by mnemonic (rule R57; the lists are the decision D6 of the spec, log 8). -/
def legalModes : Mnemonic → List Mode
  | .lda | .and | .ora | .eor =>
    [.immediate, .zeroPage, .zeroPageX, .absolute, .absoluteX, .absoluteY, .xIndexedIndirect, .indirectYIndexed]
  | .ldx =>
    [.immediate, .zeroPage, .zeroPageY, .absolute, .absoluteY]
  | .ldy =>
    [.immediate, .zeroPage, .zeroPageX, .absolute, .absoluteX]
  | .sta =>
    [.zeroPage, .zeroPageX, .absolute, .absoluteX, .absoluteY, .xIndexedIndirect, .indirectYIndexed]
  | .stx =>
    [.zeroPage, .zeroPageY, .absolute]
  | .sty =>
    [.zeroPage, .zeroPageX, .absolute]
  | .tax | .tay | .txa | .tya | .tsx | .txs | .pha | .php | .pla | .plp | .inx | .iny | .dex | .dey | .brk |
    .clc | .cld | .cli | .clv | .sec | .sed | .sei => [.implicit]
  | .inc | .dec =>
    [.zeroPage, .zeroPageX, .absolute, .absoluteX]
  | .bit =>
    [.zeroPage, .absolute]
  | .jsr =>
    [.absolute]

/-- Membership in `LegalPairs` (rule R57). -/
def legalPair (mn : Mnemonic) (m : Mode) : Bool := (legalModes mn).contains m

/-- The mnemonic of an instruction. -/
def Instr.mnemonic : Instr → Mnemonic
  | .ldaImm _ | .ldaZp _ | .ldaZpX _ | .ldaAbs _ | .ldaAbsX _ | .ldaAbsY _ | .ldaIndX _ | .ldaIndY _ => .lda
  | .ldxImm _ | .ldxZp _ | .ldxZpY _ | .ldxAbs _ | .ldxAbsY _ => .ldx
  | .ldyImm _ | .ldyZp _ | .ldyZpX _ | .ldyAbs _ | .ldyAbsX _ => .ldy
  | .staZp _ | .staZpX _ | .staAbs _ | .staAbsX _ | .staAbsY _ | .staIndX _ | .staIndY _ => .sta
  | .stxZp _ | .stxZpY _ | .stxAbs _ => .stx
  | .styZp _ | .styZpX _ | .styAbs _ => .sty
  | .tax => .tax
  | .tay => .tay
  | .txa => .txa
  | .tya => .tya
  | .tsx => .tsx
  | .txs => .txs
  | .pha => .pha
  | .php => .php
  | .pla => .pla
  | .plp => .plp
  | .incZp _ | .incZpX _ | .incAbs _ | .incAbsX _ => .inc
  | .decZp _ | .decZpX _ | .decAbs _ | .decAbsX _ => .dec
  | .inx => .inx
  | .iny => .iny
  | .dex => .dex
  | .dey => .dey
  | .andImm _ | .andZp _ | .andZpX _ | .andAbs _ | .andAbsX _ | .andAbsY _ | .andIndX _ | .andIndY _ => .and
  | .oraImm _ | .oraZp _ | .oraZpX _ | .oraAbs _ | .oraAbsX _ | .oraAbsY _ | .oraIndX _ | .oraIndY _ => .ora
  | .eorImm _ | .eorZp _ | .eorZpX _ | .eorAbs _ | .eorAbsX _ | .eorAbsY _ | .eorIndX _ | .eorIndY _ => .eor
  | .bitZp _ | .bitAbs _ => .bit
  | .jsrAbs _ => .jsr
  | .brk => .brk
  | .clc => .clc
  | .cld => .cld
  | .cli => .cli
  | .clv => .clv
  | .sec => .sec
  | .sed => .sed
  | .sei => .sei

/-- The operand of an instruction. -/
def Instr.operand : Instr → Operand
  | .ldaImm b => .source (.immediate b)
  | .ldaZp b => .source (.memory (.zeroPage b))
  | .ldaZpX b => .source (.memory (.zeroPageX b))
  | .ldaAbs w => .source (.memory (.absolute w))
  | .ldaAbsX w => .source (.memory (.absoluteX w))
  | .ldaAbsY w => .source (.memory (.absoluteY w))
  | .ldaIndX b => .source (.memory (.xIndexedIndirect b))
  | .ldaIndY b => .source (.memory (.indirectYIndexed b))
  | .ldxImm b => .source (.immediate b)
  | .ldxZp b => .source (.memory (.zeroPage b))
  | .ldxZpY b => .source (.memory (.zeroPageY b))
  | .ldxAbs w => .source (.memory (.absolute w))
  | .ldxAbsY w => .source (.memory (.absoluteY w))
  | .ldyImm b => .source (.immediate b)
  | .ldyZp b => .source (.memory (.zeroPage b))
  | .ldyZpX b => .source (.memory (.zeroPageX b))
  | .ldyAbs w => .source (.memory (.absolute w))
  | .ldyAbsX w => .source (.memory (.absoluteX w))
  | .staZp b => .source (.memory (.zeroPage b))
  | .staZpX b => .source (.memory (.zeroPageX b))
  | .staAbs w => .source (.memory (.absolute w))
  | .staAbsX w => .source (.memory (.absoluteX w))
  | .staAbsY w => .source (.memory (.absoluteY w))
  | .staIndX b => .source (.memory (.xIndexedIndirect b))
  | .staIndY b => .source (.memory (.indirectYIndexed b))
  | .stxZp b => .source (.memory (.zeroPage b))
  | .stxZpY b => .source (.memory (.zeroPageY b))
  | .stxAbs w => .source (.memory (.absolute w))
  | .styZp b => .source (.memory (.zeroPage b))
  | .styZpX b => .source (.memory (.zeroPageX b))
  | .styAbs w => .source (.memory (.absolute w))
  | .incZp b => .source (.memory (.zeroPage b))
  | .incZpX b => .source (.memory (.zeroPageX b))
  | .incAbs w => .source (.memory (.absolute w))
  | .incAbsX w => .source (.memory (.absoluteX w))
  | .decZp b => .source (.memory (.zeroPage b))
  | .decZpX b => .source (.memory (.zeroPageX b))
  | .decAbs w => .source (.memory (.absolute w))
  | .decAbsX w => .source (.memory (.absoluteX w))
  | .andImm b => .source (.immediate b)
  | .andZp b => .source (.memory (.zeroPage b))
  | .andZpX b => .source (.memory (.zeroPageX b))
  | .andAbs w => .source (.memory (.absolute w))
  | .andAbsX w => .source (.memory (.absoluteX w))
  | .andAbsY w => .source (.memory (.absoluteY w))
  | .andIndX b => .source (.memory (.xIndexedIndirect b))
  | .andIndY b => .source (.memory (.indirectYIndexed b))
  | .oraImm b => .source (.immediate b)
  | .oraZp b => .source (.memory (.zeroPage b))
  | .oraZpX b => .source (.memory (.zeroPageX b))
  | .oraAbs w => .source (.memory (.absolute w))
  | .oraAbsX w => .source (.memory (.absoluteX w))
  | .oraAbsY w => .source (.memory (.absoluteY w))
  | .oraIndX b => .source (.memory (.xIndexedIndirect b))
  | .oraIndY b => .source (.memory (.indirectYIndexed b))
  | .eorImm b => .source (.immediate b)
  | .eorZp b => .source (.memory (.zeroPage b))
  | .eorZpX b => .source (.memory (.zeroPageX b))
  | .eorAbs w => .source (.memory (.absolute w))
  | .eorAbsX w => .source (.memory (.absoluteX w))
  | .eorAbsY w => .source (.memory (.absoluteY w))
  | .eorIndX b => .source (.memory (.xIndexedIndirect b))
  | .eorIndY b => .source (.memory (.indirectYIndexed b))
  | .bitZp b => .source (.memory (.zeroPage b))
  | .bitAbs w => .source (.memory (.absolute w))
  | .jsrAbs w => .source (.memory (.absolute w))
  | .tax | .tay | .txa | .tya | .tsx | .txs | .pha | .php | .pla | .plp | .inx | .iny | .dex | .dey | .brk |
    .clc | .cld | .cli | .clv | .sec | .sed | .sei => .implicit

/-- The addressing mode of an instruction. -/
def Instr.mode (i : Instr) : Mode := i.operand.mode

/-- Total length in bytes, opcode included (rule R52). -/
def Instr.length (i : Instr) : Nat := 1 + (i.mode.operandBytes.getD 0)

/-- An instruction is well-formed when its pair is legal (rule R57). -/
def Instr.wellFormed (i : Instr) : Bool := legalPair i.mnemonic i.mode

end Sys2Proof
end

