-- ==== Sys2Proof/Decode.lean ====
section
/-! DEFINITION. The block `6502_decoder` (30_encoding.md rules R50 to R58), total on any bytes, and the encoder. Opcode
bytes other than A9, B5, A1, B1 and 20 are the standard 6502 assignment the spec adopts by its decision D5 (log 8). -/

namespace Sys2Proof

/-- `{hi, lo}`: the 16-bit value of two bytes (00_scope.md section 8). -/
def wordOf (hi lo : Byte) : Addr := hi ++ lo

/-- Bits 7:0 of a 16-bit value. -/
def lowByte (w : Addr) : Byte := w.extractLsb' 0 8

/-- Bits 15:8 of a 16-bit value. -/
def highByte (w : Addr) : Byte := w.extractLsb' 8 8

/-- `zext_16`: a byte as a 16-bit value (00_scope.md section 8). -/
def zext16 (b : Byte) : Addr := b.setWidth 16

/-- One assigned cell of the opcode map. -/
structure OpcodeRow where
  opcode : Byte
  mnemonic : Mnemonic
  mode : Mode
deriving DecidableEq, Repr

/-- Rows 0x to 3x of the opcode map of rule R55. -/
def opcodeRows03 : List OpcodeRow :=
  [⟨0x00, .brk, .implicit⟩, ⟨0x01, .ora, .xIndexedIndirect⟩, ⟨0x05, .ora, .zeroPage⟩, ⟨0x08, .php, .implicit⟩,
   ⟨0x09, .ora, .immediate⟩, ⟨0x0D, .ora, .absolute⟩, ⟨0x11, .ora, .indirectYIndexed⟩, ⟨0x15, .ora, .zeroPageX⟩,
   ⟨0x18, .clc, .implicit⟩, ⟨0x19, .ora, .absoluteY⟩, ⟨0x1D, .ora, .absoluteX⟩, ⟨0x20, .jsr, .absolute⟩,
   ⟨0x21, .and, .xIndexedIndirect⟩, ⟨0x24, .bit, .zeroPage⟩, ⟨0x25, .and, .zeroPage⟩, ⟨0x28, .plp, .implicit⟩,
   ⟨0x29, .and, .immediate⟩, ⟨0x2C, .bit, .absolute⟩, ⟨0x2D, .and, .absolute⟩, ⟨0x31, .and, .indirectYIndexed⟩,
   ⟨0x35, .and, .zeroPageX⟩, ⟨0x38, .sec, .implicit⟩, ⟨0x39, .and, .absoluteY⟩, ⟨0x3D, .and, .absoluteX⟩]

/-- Rows 4x to 7x of the opcode map of rule R55. -/
def opcodeRows47 : List OpcodeRow :=
  [⟨0x41, .eor, .xIndexedIndirect⟩, ⟨0x45, .eor, .zeroPage⟩, ⟨0x48, .pha, .implicit⟩, ⟨0x49, .eor, .immediate⟩,
   ⟨0x4D, .eor, .absolute⟩, ⟨0x51, .eor, .indirectYIndexed⟩, ⟨0x55, .eor, .zeroPageX⟩, ⟨0x58, .cli, .implicit⟩,
   ⟨0x59, .eor, .absoluteY⟩, ⟨0x5D, .eor, .absoluteX⟩, ⟨0x68, .pla, .implicit⟩, ⟨0x78, .sei, .implicit⟩]

/-- Rows 8x to 9x of the opcode map of rule R55. -/
def opcodeRows89 : List OpcodeRow :=
  [⟨0x81, .sta, .xIndexedIndirect⟩, ⟨0x84, .sty, .zeroPage⟩, ⟨0x85, .sta, .zeroPage⟩, ⟨0x86, .stx, .zeroPage⟩,
   ⟨0x88, .dey, .implicit⟩, ⟨0x8A, .txa, .implicit⟩, ⟨0x8C, .sty, .absolute⟩, ⟨0x8D, .sta, .absolute⟩,
   ⟨0x8E, .stx, .absolute⟩, ⟨0x91, .sta, .indirectYIndexed⟩, ⟨0x94, .sty, .zeroPageX⟩, ⟨0x95, .sta, .zeroPageX⟩,
   ⟨0x96, .stx, .zeroPageY⟩, ⟨0x98, .tya, .implicit⟩, ⟨0x99, .sta, .absoluteY⟩, ⟨0x9A, .txs, .implicit⟩,
   ⟨0x9D, .sta, .absoluteX⟩]

/-- Rows Ax to Bx of the opcode map of rule R55. -/
def opcodeRowsAB : List OpcodeRow :=
  [⟨0xA0, .ldy, .immediate⟩, ⟨0xA1, .lda, .xIndexedIndirect⟩, ⟨0xA2, .ldx, .immediate⟩, ⟨0xA4, .ldy, .zeroPage⟩,
   ⟨0xA5, .lda, .zeroPage⟩, ⟨0xA6, .ldx, .zeroPage⟩, ⟨0xA8, .tay, .implicit⟩, ⟨0xA9, .lda, .immediate⟩,
   ⟨0xAA, .tax, .implicit⟩, ⟨0xAC, .ldy, .absolute⟩, ⟨0xAD, .lda, .absolute⟩, ⟨0xAE, .ldx, .absolute⟩,
   ⟨0xB1, .lda, .indirectYIndexed⟩, ⟨0xB4, .ldy, .zeroPageX⟩, ⟨0xB5, .lda, .zeroPageX⟩,
   ⟨0xB6, .ldx, .zeroPageY⟩, ⟨0xB8, .clv, .implicit⟩, ⟨0xB9, .lda, .absoluteY⟩, ⟨0xBA, .tsx, .implicit⟩,
   ⟨0xBC, .ldy, .absoluteX⟩, ⟨0xBD, .lda, .absoluteX⟩, ⟨0xBE, .ldx, .absoluteY⟩]

/-- Rows Cx to Fx of the opcode map of rule R55. -/
def opcodeRowsCF : List OpcodeRow :=
  [⟨0xC6, .dec, .zeroPage⟩, ⟨0xC8, .iny, .implicit⟩, ⟨0xCA, .dex, .implicit⟩, ⟨0xCE, .dec, .absolute⟩,
   ⟨0xD6, .dec, .zeroPageX⟩, ⟨0xD8, .cld, .implicit⟩, ⟨0xDE, .dec, .absoluteX⟩, ⟨0xE6, .inc, .zeroPage⟩,
   ⟨0xE8, .inx, .implicit⟩, ⟨0xEE, .inc, .absolute⟩, ⟨0xF6, .inc, .zeroPageX⟩, ⟨0xF8, .sed, .implicit⟩,
   ⟨0xFE, .inc, .absoluteX⟩]

/-- The opcode map (rule R55): 88 rows. -/
def opcodeTable : List OpcodeRow :=
  opcodeRows03 ++ opcodeRows47 ++ opcodeRows89 ++ opcodeRowsAB ++ opcodeRowsCF

/-- `Decode(op)` (rule R54): `some (mnemonic, mode)` for an assigned byte, `none` (the spec's Invalid) for the others. -/
def decodeOpcode (op : Byte) : Option (Mnemonic × Mode) :=
  (opcodeTable.find? (fun r => r.opcode == op)).map (fun r => (r.mnemonic, r.mode))

/-- Operand assembly (rules R52, R53): the operand of a mode from the two bytes after the opcode, as many as the mode
has; `none` for the three tags that have no rule (R96). -/
def operandOf (m : Mode) (b1 b2 : Byte) : Option Operand :=
  match m with
  | .implicit => some .implicit
  | .immediate => some (.source (.immediate b1))
  | .zeroPage => some (.source (.memory (.zeroPage b1)))
  | .zeroPageX => some (.source (.memory (.zeroPageX b1)))
  | .zeroPageY => some (.source (.memory (.zeroPageY b1)))
  | .absolute => some (.source (.memory (.absolute (wordOf b2 b1))))
  | .absoluteX => some (.source (.memory (.absoluteX (wordOf b2 b1))))
  | .absoluteY => some (.source (.memory (.absoluteY (wordOf b2 b1))))
  | .xIndexedIndirect => some (.source (.memory (.xIndexedIndirect b1)))
  | .indirectYIndexed => some (.source (.memory (.indirectYIndexed b1)))
  | .accumulator | .relative | .indirect => none

/-- The instruction of a mnemonic and an operand; `none` where the executor does not implement the pair (rule R57). -/
def assemble (mn : Mnemonic) (o : Operand) : Option Instr :=
  match mn, o with
  | .lda, .source (.immediate b) => some (.ldaImm b)
  | .lda, .source (.memory (.zeroPage b)) => some (.ldaZp b)
  | .lda, .source (.memory (.zeroPageX b)) => some (.ldaZpX b)
  | .lda, .source (.memory (.absolute w)) => some (.ldaAbs w)
  | .lda, .source (.memory (.absoluteX w)) => some (.ldaAbsX w)
  | .lda, .source (.memory (.absoluteY w)) => some (.ldaAbsY w)
  | .lda, .source (.memory (.xIndexedIndirect b)) => some (.ldaIndX b)
  | .lda, .source (.memory (.indirectYIndexed b)) => some (.ldaIndY b)
  | .ldx, .source (.immediate b) => some (.ldxImm b)
  | .ldx, .source (.memory (.zeroPage b)) => some (.ldxZp b)
  | .ldx, .source (.memory (.zeroPageY b)) => some (.ldxZpY b)
  | .ldx, .source (.memory (.absolute w)) => some (.ldxAbs w)
  | .ldx, .source (.memory (.absoluteY w)) => some (.ldxAbsY w)
  | .ldy, .source (.immediate b) => some (.ldyImm b)
  | .ldy, .source (.memory (.zeroPage b)) => some (.ldyZp b)
  | .ldy, .source (.memory (.zeroPageX b)) => some (.ldyZpX b)
  | .ldy, .source (.memory (.absolute w)) => some (.ldyAbs w)
  | .ldy, .source (.memory (.absoluteX w)) => some (.ldyAbsX w)
  | .sta, .source (.memory (.zeroPage b)) => some (.staZp b)
  | .sta, .source (.memory (.zeroPageX b)) => some (.staZpX b)
  | .sta, .source (.memory (.absolute w)) => some (.staAbs w)
  | .sta, .source (.memory (.absoluteX w)) => some (.staAbsX w)
  | .sta, .source (.memory (.absoluteY w)) => some (.staAbsY w)
  | .sta, .source (.memory (.xIndexedIndirect b)) => some (.staIndX b)
  | .sta, .source (.memory (.indirectYIndexed b)) => some (.staIndY b)
  | .stx, .source (.memory (.zeroPage b)) => some (.stxZp b)
  | .stx, .source (.memory (.zeroPageY b)) => some (.stxZpY b)
  | .stx, .source (.memory (.absolute w)) => some (.stxAbs w)
  | .sty, .source (.memory (.zeroPage b)) => some (.styZp b)
  | .sty, .source (.memory (.zeroPageX b)) => some (.styZpX b)
  | .sty, .source (.memory (.absolute w)) => some (.styAbs w)
  | .tax, .implicit => some .tax
  | .tay, .implicit => some .tay
  | .txa, .implicit => some .txa
  | .tya, .implicit => some .tya
  | .tsx, .implicit => some .tsx
  | .txs, .implicit => some .txs
  | .pha, .implicit => some .pha
  | .php, .implicit => some .php
  | .pla, .implicit => some .pla
  | .plp, .implicit => some .plp
  | .inc, .source (.memory (.zeroPage b)) => some (.incZp b)
  | .inc, .source (.memory (.zeroPageX b)) => some (.incZpX b)
  | .inc, .source (.memory (.absolute w)) => some (.incAbs w)
  | .inc, .source (.memory (.absoluteX w)) => some (.incAbsX w)
  | .dec, .source (.memory (.zeroPage b)) => some (.decZp b)
  | .dec, .source (.memory (.zeroPageX b)) => some (.decZpX b)
  | .dec, .source (.memory (.absolute w)) => some (.decAbs w)
  | .dec, .source (.memory (.absoluteX w)) => some (.decAbsX w)
  | .inx, .implicit => some .inx
  | .iny, .implicit => some .iny
  | .dex, .implicit => some .dex
  | .dey, .implicit => some .dey
  | .and, .source (.immediate b) => some (.andImm b)
  | .and, .source (.memory (.zeroPage b)) => some (.andZp b)
  | .and, .source (.memory (.zeroPageX b)) => some (.andZpX b)
  | .and, .source (.memory (.absolute w)) => some (.andAbs w)
  | .and, .source (.memory (.absoluteX w)) => some (.andAbsX w)
  | .and, .source (.memory (.absoluteY w)) => some (.andAbsY w)
  | .and, .source (.memory (.xIndexedIndirect b)) => some (.andIndX b)
  | .and, .source (.memory (.indirectYIndexed b)) => some (.andIndY b)
  | .ora, .source (.immediate b) => some (.oraImm b)
  | .ora, .source (.memory (.zeroPage b)) => some (.oraZp b)
  | .ora, .source (.memory (.zeroPageX b)) => some (.oraZpX b)
  | .ora, .source (.memory (.absolute w)) => some (.oraAbs w)
  | .ora, .source (.memory (.absoluteX w)) => some (.oraAbsX w)
  | .ora, .source (.memory (.absoluteY w)) => some (.oraAbsY w)
  | .ora, .source (.memory (.xIndexedIndirect b)) => some (.oraIndX b)
  | .ora, .source (.memory (.indirectYIndexed b)) => some (.oraIndY b)
  | .eor, .source (.immediate b) => some (.eorImm b)
  | .eor, .source (.memory (.zeroPage b)) => some (.eorZp b)
  | .eor, .source (.memory (.zeroPageX b)) => some (.eorZpX b)
  | .eor, .source (.memory (.absolute w)) => some (.eorAbs w)
  | .eor, .source (.memory (.absoluteX w)) => some (.eorAbsX w)
  | .eor, .source (.memory (.absoluteY w)) => some (.eorAbsY w)
  | .eor, .source (.memory (.xIndexedIndirect b)) => some (.eorIndX b)
  | .eor, .source (.memory (.indirectYIndexed b)) => some (.eorIndY b)
  | .bit, .source (.memory (.zeroPage b)) => some (.bitZp b)
  | .bit, .source (.memory (.absolute w)) => some (.bitAbs w)
  | .jsr, .source (.memory (.absolute w)) => some (.jsrAbs w)
  | .brk, .implicit => some .brk
  | .clc, .implicit => some .clc
  | .cld, .implicit => some .cld
  | .cli, .implicit => some .cli
  | .clv, .implicit => some .clv
  | .sec, .implicit => some .sec
  | .sed, .implicit => some .sed
  | .sei, .implicit => some .sei
  | _, _ => none

/-- What the bytes at the program counter stand for. -/
inductive Decoded where
  /-- The bytes are this instruction. -/
  | ok (i : Instr)
  /-- The opcode byte is unassigned (rule R56). -/
  | invalidOpcode (op : Byte)
  /-- The pair is not in `LegalPairs` (rule R57). -/
  | unsupportedPair (op : Byte) (mn : Mnemonic) (m : Mode)
deriving DecidableEq, Repr

/-- The decoder-to-executor interface, total over all 35 × 13 pairs (rules R57, R182): a legal pair takes its operand
from the two bytes after the opcode, any other pair is rejected by name. -/
def decodePair (op : Byte) (mn : Mnemonic) (m : Mode) (b1 b2 : Byte) : Decoded :=
  match (operandOf m b1 b2).bind (assemble mn) with
  | some i => .ok i
  | none => .unsupportedPair op mn m

/-- Decoding three bytes of memory, the opcode first; bytes past the instruction's length are not looked at (R51). -/
def decodeBytes (op b1 b2 : Byte) : Decoded :=
  match decodeOpcode op with
  | some (mn, m) => decodePair op mn m b1 b2
  | none => .invalidOpcode op

/-- The result of decoding a list of bytes. -/
inductive DecodeResult where
  /-- An instruction and the bytes after it. -/
  | ok (i : Instr) (rest : List Byte)
  /-- The first byte is unassigned (rule R56). -/
  | invalidOpcode (op : Byte)
  /-- The pair of the first byte is not in `LegalPairs` (rule R57). -/
  | unsupportedPair (op : Byte)
  /-- The list ends before the instruction does. -/
  | truncated
deriving DecidableEq, Repr

/-- The decoder on a list of bytes, total, rejecting by name. -/
def decode (bytes : List Byte) : DecodeResult :=
  match bytes with
  | [] => .truncated
  | op :: tail =>
    match decodeBytes op (tail.getD 0 0) (tail.getD 1 0) with
    | .ok i => if i.length ≤ bytes.length then .ok i (bytes.drop i.length) else .truncated
    | .invalidOpcode op => .invalidOpcode op
    | .unsupportedPair op _ _ => .unsupportedPair op

/-- Byte k of an instruction numbered as spec/opcode_table.json numbers it: bit 0 is the least significant bit of the
first byte, and bits at or above `nbits` are 0. -/
def tableByte (nbits w k : Nat) : Byte := BitVec.ofNat 8 ((w % 2 ^ nbits) / 2 ^ (8 * k))

/-- The instruction the decoder reads from a table word (rules R50, R55). -/
def decodeTableWord (nbits w : Nat) : Option Instr :=
  match decodeBytes (tableByte nbits w 0) (tableByte nbits w 1) (tableByte nbits w 2) with
  | .ok i => some i
  | _ => none

/-- The opcode byte of an instruction, from the by-mnemonic list of rule R55. -/
def Instr.opcode : Instr → Byte
  | .ldaImm _ => 0xA9 | .ldaZp _ => 0xA5 | .ldaZpX _ => 0xB5 | .ldaAbs _ => 0xAD | .ldaAbsX _ => 0xBD
  | .ldaAbsY _ => 0xB9 | .ldaIndX _ => 0xA1 | .ldaIndY _ => 0xB1
  | .ldxImm _ => 0xA2 | .ldxZp _ => 0xA6 | .ldxZpY _ => 0xB6 | .ldxAbs _ => 0xAE | .ldxAbsY _ => 0xBE
  | .ldyImm _ => 0xA0 | .ldyZp _ => 0xA4 | .ldyZpX _ => 0xB4 | .ldyAbs _ => 0xAC | .ldyAbsX _ => 0xBC
  | .staZp _ => 0x85 | .staZpX _ => 0x95 | .staAbs _ => 0x8D | .staAbsX _ => 0x9D | .staAbsY _ => 0x99
  | .staIndX _ => 0x81 | .staIndY _ => 0x91
  | .stxZp _ => 0x86 | .stxZpY _ => 0x96 | .stxAbs _ => 0x8E
  | .styZp _ => 0x84 | .styZpX _ => 0x94 | .styAbs _ => 0x8C
  | .tax => 0xAA
  | .tay => 0xA8
  | .txa => 0x8A
  | .tya => 0x98
  | .tsx => 0xBA
  | .txs => 0x9A
  | .pha => 0x48
  | .php => 0x08
  | .pla => 0x68
  | .plp => 0x28
  | .incZp _ => 0xE6 | .incZpX _ => 0xF6 | .incAbs _ => 0xEE | .incAbsX _ => 0xFE
  | .decZp _ => 0xC6 | .decZpX _ => 0xD6 | .decAbs _ => 0xCE | .decAbsX _ => 0xDE
  | .inx => 0xE8
  | .iny => 0xC8
  | .dex => 0xCA
  | .dey => 0x88
  | .andImm _ => 0x29 | .andZp _ => 0x25 | .andZpX _ => 0x35 | .andAbs _ => 0x2D | .andAbsX _ => 0x3D
  | .andAbsY _ => 0x39 | .andIndX _ => 0x21 | .andIndY _ => 0x31
  | .oraImm _ => 0x09 | .oraZp _ => 0x05 | .oraZpX _ => 0x15 | .oraAbs _ => 0x0D | .oraAbsX _ => 0x1D
  | .oraAbsY _ => 0x19 | .oraIndX _ => 0x01 | .oraIndY _ => 0x11
  | .eorImm _ => 0x49 | .eorZp _ => 0x45 | .eorZpX _ => 0x55 | .eorAbs _ => 0x4D | .eorAbsX _ => 0x5D
  | .eorAbsY _ => 0x59 | .eorIndX _ => 0x41 | .eorIndY _ => 0x51
  | .bitZp _ => 0x24 | .bitAbs _ => 0x2C
  | .jsrAbs _ => 0x20
  | .brk => 0x00
  | .clc => 0x18
  | .cld => 0xD8
  | .cli => 0x58
  | .clv => 0xB8
  | .sec => 0x38
  | .sed => 0xF8
  | .sei => 0x78

/-- The operand bytes of an address form, low byte first (rule R53). -/
def AddrForm.bytes : AddrForm → List Byte
  | .zeroPage b | .zeroPageX b | .zeroPageY b | .xIndexedIndirect b | .indirectYIndexed b => [b]
  | .absolute w | .absoluteX w | .absoluteY w => [lowByte w, highByte w]

/-- The operand bytes of an operand. -/
def Operand.bytes : Operand → List Byte
  | .implicit => []
  | .source (.immediate b) => [b]
  | .source (.memory f) => f.bytes

/-- The encoder (rules R50, R53, R55): the opcode byte, then the operand bytes. -/
def encode (i : Instr) : List Byte := i.opcode :: i.operand.bytes

end Sys2Proof
end

