-- ==== Sys2Proof/Config.lean ====
section
/-! DEFINITION. What is fixed for one machine: the constants of 00_scope.md rule R4 and the two open parameters of
rule R5, which the model takes as an argument (they stand in `State.params`, log 1). -/

namespace Sys2Proof

/-- STACK_BASE, the first address of the stack page (R4, R11). -/
def Config.stackBase : Addr := 0x0100
/-- RESET_PC (R4, R22). -/
def Config.resetPC : Addr := 0xFFFC
/-- RESET_SP (R4, R22). -/
def Config.resetSP : Byte := 0xFF
/-- BRK_PC, the constant BRK writes into PC (R4, R161). -/
def Config.brkPC : Addr := 0xFFFE
/-- What every byte of memory holds after reset (R22, R35), so what an unlisted address reads as. -/
def Config.erased : Byte := 0x00

/-- The open parameters of rule R5. Nothing in the model assumes a value of either. -/
structure Params where
  /-- JSR_PUSHES_RETURN: whether JSR pushes `pc0 + 2` before it jumps (R160). -/
  jsrPushesReturn : Bool
  /-- P_BIT5: bit 5 of the packed status byte (R14). -/
  pBit5 : Bool
deriving DecidableEq, Repr

/-- The defaults rule R5 recommends. Only `State.reset` uses them; DESIGN CHOICE, log 1. -/
def Params.recommended : Params := { jsrPushesReturn := false, pBit5 := false }

end Sys2Proof
end

