-- ==== Sys2Proof/Machine/State.lean ====
section
/-! DEFINITION. The state of the machine (10_state.md rules R10 to R20, 20_memory.md rule R30), plain data, and its
value after reset (rules R22, R200). -/

namespace Sys2Proof.Machine

/-- `run_state` (rule R18). -/
inductive RunState where
  | running
  | halted
deriving DecidableEq, Repr

/-- The seven status flags (rule R13); there is no storage for bit 5 of the status byte. -/
structure Flags where
  /-- Carry. -/
  c : Bool
  /-- Zero. -/
  z : Bool
  /-- Interrupt-disable; it masks nothing (R186). -/
  i : Bool
  /-- Decimal; it changes no arithmetic (R108). -/
  d : Bool
  /-- Break. -/
  b : Bool
  /-- Overflow. -/
  v : Bool
  /-- Negative. -/
  n : Bool
deriving DecidableEq, Repr

/-- The fault record (rule R19): the failing opcode byte and `pc0`, the address it was fetched from. -/
inductive FaultRecord where
  | none
  | decodeFault (opcode : Byte) (pc : Addr)
  | unsupportedAddressingFault (opcode : Byte) (pc : Addr)
deriving DecidableEq, Repr

/-- The 65,536 bytes of rule R30 as (address, byte) pairs in one canonical form (`Memory.wf`): addresses strictly
rising, none listed whose byte is what an unlisted address reads as. See log 6. -/
abbrev Memory := List Host.Cell

/-- The complete state of rule R20, and the two open parameters of rule R5 (the model's own field, log 1). -/
structure State where
  /-- The accumulator (R10). -/
  a : Byte
  /-- The X index register (R10). -/
  x : Byte
  /-- The Y index register (R10). -/
  y : Byte
  /-- The stack pointer (R11). -/
  sp : Byte
  /-- The program counter (R12). -/
  pc : Addr
  /-- The seven flags (R13). -/
  flags : Flags
  /-- Running or halted (R18). -/
  runState : RunState
  /-- The fault record (R19). -/
  fault : FaultRecord
  /-- The memory (R25, R30). -/
  mem : Memory
  /-- JSR_PUSHES_RETURN and P_BIT5 (R5): no step writes them. -/
  params : Params
deriving DecidableEq, Repr

/-- Faults that end the model's run. There are none: the two faults of the hardware have an entry the spec describes
(R183), so they are NEXT states with the record set and the machine halted, and nothing else stops it. See log 7. -/
inductive Fault where
deriving DecidableEq, Repr

/-- Refusals of the model. -/
inductive Refusal where
  /-- Raised by an arm of `exec` that has no meaning yet (safe: it claims nothing). No arm raises it. -/
  | notModelled (mnemonic : String)
deriving DecidableEq, Repr

/-- All seven flags false: the flags' `clear()` (rule R21). -/
def Flags.clear : Flags :=
  { c := false, z := false, i := false, d := false, b := false, v := false, n := false }

/-- The state right after reset (rules R22, R200), for given values of the open parameters (R5). PC is the constant
0xFFFC: no vector is read (R201). -/
def State.resetWith (p : Params) : State :=
  { a := 0, x := 0, y := 0, sp := Config.resetSP, pc := Config.resetPC, flags := Flags.clear,
    runState := .running, fault := .none, mem := [], params := p }

/-- The state right after reset, with the parameter values R5 recommends (DESIGN CHOICE, log 1). -/
def State.reset : State := State.resetWith Params.recommended

end Sys2Proof.Machine
end

