-- ==== Sys2Proof/Machine/Flags.lean ====
section
/-! DEFINITION. The blocks `alu_6502` and `flag_update_unit` (42_alu_flags.md rules R100 to R105) and the status byte
(10_state.md rules R14, R15). -/

namespace Sys2Proof.Machine

/-- The operations of `alu_6502` (rule R100). -/
inductive AluOp where
  | pass | and | or | xor | inc | dec
deriving DecidableEq, Repr

/-- `Alu(op, a, b)` (rule R100): no carry in or out, wrapping; `pass`, `inc` and `dec` do not use `a`. -/
def alu (op : AluOp) (a b : Byte) : Byte :=
  match op with
  | .pass => b
  | .and => a &&& b
  | .or => a ||| b
  | .xor => a ^^^ b
  | .inc => b + 1
  | .dec => b - 1

/-- Names of the flags that one command sets alone. -/
inductive FlagName where
  | c | i | d | b | v
deriving DecidableEq, Repr

/-- `SetZN(v)` (rule R101). -/
def setZN (v : Byte) (f : Flags) : Flags := { f with z := v == 0, n := v.getLsbD 7 }

/-- `BitFlags(a, v)` (rule R102): Z from `a & v`, V and N from the operand itself. -/
def bitFlags (a v : Byte) (f : Flags) : Flags :=
  { f with z := alu .and a v == 0, v := v.getLsbD 6, n := v.getLsbD 7 }

/-- One named flag set to a value, the other six unchanged. -/
def setFlag (name : FlagName) (value : Bool) (f : Flags) : Flags :=
  match name with
  | .c => { f with c := value }
  | .i => { f with i := value }
  | .d => { f with d := value }
  | .b => { f with b := value }
  | .v => { f with v := value }

/-- `PackP()` (rule R14): C, Z, I, D, B, P_BIT5, V, N from bit 0 to bit 7. -/
def packP (bit5 : Bool) (f : Flags) : Byte :=
  BitVec.ofNat 8 (f.c.toNat + 2 * f.z.toNat + 4 * f.i.toNat + 8 * f.d.toNat + 16 * f.b.toNat
    + 32 * bit5.toNat + 64 * f.v.toNat + 128 * f.n.toNat)

/-- `UnpackP(b)` (rule R15): bit 5 is ignored. -/
def unpackP (b : Byte) : Flags :=
  { c := b.getLsbD 0, z := b.getLsbD 1, i := b.getLsbD 2, d := b.getLsbD 3, b := b.getLsbD 4,
    v := b.getLsbD 6, n := b.getLsbD 7 }

/-- The commands of `flag_update_unit` (rule R103). -/
inductive FlagCommand where
  | keep
  | zn (v : Byte)
  | bitTest (a v : Byte)
  | setOne (name : FlagName) (value : Bool)
  | loadAll (b : Byte)
deriving DecidableEq, Repr

/-- The new flags a command gives (rule R103). -/
def flagUpdate (cmd : FlagCommand) (f : Flags) : Flags :=
  match cmd with
  | .keep => f
  | .zn v => setZN v f
  | .bitTest a v => bitFlags a v f
  | .setOne name value => setFlag name value f
  | .loadAll b => unpackP b

end Sys2Proof.Machine
end

