-- ==== Sys2Proof/Machine/Ops.lean ====
section
/-! DEFINITION. The named operations over memory, registers, flags and the stack that every meaning is written with, and
the one fault entry (60_exceptions.md rule R183). -/

namespace Sys2Proof.Machine

/-! ## Memory (20_memory.md) -/

/-- The byte a list of cells gives for an address; an unlisted address reads as after reset (R22, R35). -/
def Memory.lookup : Memory → Nat → Byte
  | [], _ => Config.erased
  | cell :: rest, k => if cell.1 = k then cell.2 else Memory.lookup rest k

/-- The list without any cell of an address. -/
def Memory.remove (m : Memory) (k : Nat) : Memory := m.filter (fun cell => cell.1 ≠ k)

/-- A cell put in before the first larger address. -/
def Memory.insert : Memory → Nat → Byte → Memory
  | [], k, v => [(k, v)]
  | cell :: rest, k, v => if k < cell.1 then (k, v) :: cell :: rest else cell :: Memory.insert rest k v

/-- `MemRead(addr, 1)` (R31). -/
def Memory.read (m : Memory) (a : Addr) : Byte := m.lookup a.toNat

/-- `MemWrite(addr, 1, v)` (R32), keeping the canonical form. -/
def Memory.write (m : Memory) (a : Addr) (v : Byte) : Memory :=
  if v = Config.erased then m.remove a.toNat else (m.remove a.toNat).insert a.toNat v

/-- `MemRead(addr, 2)` (R33): little-endian, the high byte from the next address in 16-bit arithmetic. -/
def Memory.readWord (m : Memory) (a : Addr) : Addr := wordOf (m.read (a + 1)) (m.read a)

/-- `MemWrite(addr, 2, v)` (R34): the low byte, then the high byte at the next address. -/
def Memory.writeWord (m : Memory) (a : Addr) (v : Addr) : Memory :=
  (m.write a (lowByte v)).write (a + 1) (highByte v)

/-- The canonical form: addresses inside the space and strictly rising, no cell equal to what an unlisted address
reads as (log 6). -/
def Memory.wf : Memory → Bool
  | [] => true
  | cell :: rest =>
    decide (cell.1 < 65536) && decide (cell.2 ≠ Config.erased)
      && rest.all (fun later => decide (cell.1 < later.1)) && Memory.wf rest

/-! ## Registers and flags (10_state.md rule R21, 42_alu_flags.md rule R103) -/

/-- The general registers, the r of `x[r]` (00_scope.md section 8). -/
inductive Reg where
  | a | x | y
deriving DecidableEq, Repr

/-- The value of a general register. -/
def State.getReg (s : State) (r : Reg) : Byte :=
  match r with
  | .a => s.a
  | .x => s.x
  | .y => s.y

/-- `x[r] <- v`. -/
def State.setReg (s : State) (r : Reg) (v : Byte) : State :=
  match r with
  | .a => { s with a := v }
  | .x => { s with x := v }
  | .y => { s with y := v }

/-- The step's one command to the flag unit, carried out (R103). -/
def State.command (s : State) (cmd : FlagCommand) : State := { s with flags := flagUpdate cmd s.flags }

/-- A byte stored by an instruction or loaded by the host (R32). -/
def State.store (s : State) (a : Addr) (v : Byte) : State := { s with mem := s.mem.write a v }

/-! ## The stack (45_stack.md) -/

/-- The stack address `0x0100 + SP` (R11). -/
def stackAddr (sp : Byte) : Addr := Config.stackBase + zext16 sp

/-- `Push(v)` (R130): write, then decrement. -/
def State.push (s : State) (v : Byte) : State :=
  { s with mem := s.mem.write (stackAddr s.sp) v, sp := s.sp - 1 }

/-- The byte `Pull()` returns (R131): the one at the incremented SP. -/
def State.pulledByte (s : State) : Byte := s.mem.read (stackAddr (s.sp + 1))

/-- The state `Pull()` leaves (R131): SP incremented, nothing else changed. -/
def State.pulled (s : State) : State := { s with sp := s.sp + 1 }

/-! ## The end of an instruction, and of a run -/

/-- The executor's last phase for every instruction but JSR and BRK (40_dispatch.md rules R74, R75): from the state `s`
before the step and the state `t` after the effect, PC becomes `pc0` plus the length, wrapping. -/
def retire (s : State) (operandBytes : Nat) (t : State) : Host.Outcome State Fault Refusal :=
  .next { t with pc := s.pc + BitVec.ofNat 16 (1 + operandBytes) }

/-- Fault entry (60_exceptions.md rule R183): the record is set and the machine halts; nothing else changes, PC stays at
`pc0` (the spec's decision D10, log 10). There is no return from it (R187): only reset leaves HALTED. -/
def raiseFault (f : FaultRecord) (s : State) : State := { s with fault := f, runState := .halted }

/-- The BRK halt (48_control.md rule R161): B set, PC the constant 0xFFFE, halted; nothing is pushed and no vector is
read (the spec's decision D12, log 12). -/
def brkHalt (s : State) : State :=
  { (s.command (.setOne .b true)) with pc := Config.brkPC, runState := .halted }

/-! ## The host's operations between steps (40_dispatch.md rule R79) -/

/-- The reset entry point (70_reset_and_hazards.md rule R200): the same state from every state; the machine's parameters
are its constants. The only way out of HALTED (R72). -/
def hostReset (s : State) : State := State.resetWith s.params

/-- The load interface's `write_byte` (20_memory.md rule R45). -/
def hostLoadByte (a : Addr) (v : Byte) (s : State) : State := s.store a v

/-- The load interface's `write_word` (R34, R45). -/
def hostLoadWord (a : Addr) (v : Addr) (s : State) : State := { s with mem := s.mem.writeWord a v }

/-- What the host sees of the flags as a byte (10_state.md rules R14, R22, R23). The other reads of the inspection
interface are the fields of State, `Memory.read` and `Memory.readWord`. -/
def statusByte (s : State) : Byte := packP s.params.pBit5 s.flags

end Sys2Proof.Machine
end

