-- ==== Sys2Proof/Machine/Operands.lean ====
section
/-! DEFINITION. The block `addressing_mode_resolver` (41_addressing.md rules R85 to R98): one rule per mode. It reads
registers X and Y and memory and writes nothing. -/

namespace Sys2Proof.Machine

/-- The effective address of an address form (rules R88 to R95). Index additions to a zero-page byte wrap at 8 bits,
additions to a 16-bit word wrap at 16 bits (R98). A pointer word is read with `Memory.readWord`, so a pointer at 0xFF
takes its high byte from 0x0100 (the spec's decision D9, log 9). -/
def effectiveAddress (f : AddrForm) (s : State) : Addr :=
  match f with
  | .zeroPage b => zext16 b
  | .zeroPageX b => zext16 (b + s.x)
  | .zeroPageY b => zext16 (b + s.y)
  | .absolute w => w
  | .absoluteX w => w + zext16 s.x
  | .absoluteY w => w + zext16 s.y
  | .xIndexedIndirect b => s.mem.readWord (zext16 (b + s.x))
  | .indirectYIndexed b => s.mem.readWord (zext16 b) + zext16 s.y

/-- `ReadOperand(r)` (R97): the operand byte itself, or the byte at the effective address. -/
def readOperand (src : Source) (s : State) : Byte :=
  match src with
  | .immediate b => b
  | .memory f => s.mem.read (effectiveAddress f s)

/-- `nbytes` of an address form: its operand bytes (R52, R85). -/
def formBytes (f : AddrForm) : Nat :=
  match f with
  | .zeroPage _ | .zeroPageX _ | .zeroPageY _ | .xIndexedIndirect _ | .indirectYIndexed _ => 1
  | .absolute _ | .absoluteX _ | .absoluteY _ => 2

/-- `nbytes` of a source (R52, R85). -/
def sourceBytes (src : Source) : Nat :=
  match src with
  | .immediate _ => 1
  | .memory f => formBytes f

/-- `kind` of the resolver's result, with the value it selects (R85). -/
inductive Resolved where
  | none
  | imm (v : Byte)
  | addr (ea : Addr)
deriving DecidableEq, Repr

/-- The resolver's result for an operand already read: `(nbytes, kind)` (R86 to R95). -/
def resolve (o : Operand) (s : State) : Nat × Resolved :=
  match o with
  | .implicit => (0, .none)
  | .source (.immediate b) => (1, .imm b)
  | .source (.memory f) => (formBytes f, .addr (effectiveAddress f s))

/-- `Resolve(mode, pc0)` (R85): the operand bytes are those at `pc0 +16 1` and `pc0 +16 2`. `none` for the three tags
that have no rule; a step never asks for one (R96). -/
def resolveAt (m : Mode) (pc0 : Addr) (s : State) : Option (Nat × Resolved) :=
  (operandOf m (s.mem.read (pc0 + 1)) (s.mem.read (pc0 + 2))).map (fun o => resolve o s)

end Sys2Proof.Machine
end

