-- ==== Sys2Proof/Machine/Control.lean ====
section
/-! DEFINITION. Control transfer, JSR and BRK (48_control.md rules R160, R161). These two write PC themselves (R76). -/

namespace Sys2Proof.Machine

/-- The return-address push of JSR with JSR_PUSHES_RETURN true (R160): `pc0 + 2`, high byte first (log 15). -/
def pushReturn (s : State) : State :=
  let ret := s.pc + 2
  (s.push (highByte ret)).push (lowByte ret)

/-- JSR Absolute (R160, R91): jump to the operand, with the push the parameter asks for. -/
def execJsrAbs (w : Addr) (s : State) : Host.Outcome State Fault Refusal :=
  .next { ((if s.params.jsrPushesReturn then pushReturn s else s).command .keep) with
    pc := effectiveAddress (.absolute w) s }

/-- BRK (R161): the BRK halt. -/
def execBrk (s : State) : Host.Outcome State Fault Refusal := .next (brkHalt s)

end Sys2Proof.Machine
end

