-- ==== Sys2Proof/Machine/FlagOps.lean ====
section
/-! DEFINITION. Status-flag clear and set instructions (49_flag_ops.md rules R170 to R176). -/

namespace Sys2Proof.Machine

/-- The rule of the family (R170 to R176): exactly one flag set to a value. -/
def flagOp (name : FlagName) (value : Bool) (s : State) : Host.Outcome State Fault Refusal :=
  retire s 0 (s.command (.setOne name value))

/-- CLC (R170). -/
def execClc (s : State) : Host.Outcome State Fault Refusal := flagOp .c false s

/-- CLD (R171). -/
def execCld (s : State) : Host.Outcome State Fault Refusal := flagOp .d false s

/-- CLI (R172). -/
def execCli (s : State) : Host.Outcome State Fault Refusal := flagOp .i false s

/-- CLV (R173). -/
def execClv (s : State) : Host.Outcome State Fault Refusal := flagOp .v false s

/-- SEC (R174). -/
def execSec (s : State) : Host.Outcome State Fault Refusal := flagOp .c true s

/-- SED (R175). -/
def execSed (s : State) : Host.Outcome State Fault Refusal := flagOp .d true s

/-- SEI (R176). -/
def execSei (s : State) : Host.Outcome State Fault Refusal := flagOp .i true s

end Sys2Proof.Machine
end

