-- ==== Sys2Proof/Machine/IncDec.lean ====
section
/-! DEFINITION. Increment and decrement instructions (46_incdec.md rules R140 to R145). -/

namespace Sys2Proof.Machine

/-- The rule of INC and DEC on memory (R140, R141): one read and one write of the effective address, Z and N from the
result, C untouched. -/
def modifyMemory (op : AluOp) (f : AddrForm) (s : State) : Host.Outcome State Fault Refusal :=
  let ea := effectiveAddress f s
  let res := alu op 0 (s.mem.read ea)
  retire s (formBytes f) ((s.store ea res).command (.zn res))

/-- The rule of the register forms (R142 to R145). -/
def modifyRegister (op : AluOp) (r : Reg) (s : State) : Host.Outcome State Fault Refusal :=
  let res := alu op 0 (s.getReg r)
  retire s 0 ((s.setReg r res).command (.zn res))

/-- INC ZeroPage (R140, R88). -/
def execIncZp (b : Byte) (s : State) : Host.Outcome State Fault Refusal := modifyMemory .inc (.zeroPage b) s

/-- INC ZeroPageX (R140, R89). -/
def execIncZpX (b : Byte) (s : State) : Host.Outcome State Fault Refusal := modifyMemory .inc (.zeroPageX b) s

/-- INC Absolute (R140, R91). -/
def execIncAbs (w : Addr) (s : State) : Host.Outcome State Fault Refusal := modifyMemory .inc (.absolute w) s

/-- INC AbsoluteX (R140, R92). -/
def execIncAbsX (w : Addr) (s : State) : Host.Outcome State Fault Refusal := modifyMemory .inc (.absoluteX w) s

/-- DEC ZeroPage (R141, R88). -/
def execDecZp (b : Byte) (s : State) : Host.Outcome State Fault Refusal := modifyMemory .dec (.zeroPage b) s

/-- DEC ZeroPageX (R141, R89). -/
def execDecZpX (b : Byte) (s : State) : Host.Outcome State Fault Refusal := modifyMemory .dec (.zeroPageX b) s

/-- DEC Absolute (R141, R91). -/
def execDecAbs (w : Addr) (s : State) : Host.Outcome State Fault Refusal := modifyMemory .dec (.absolute w) s

/-- DEC AbsoluteX (R141, R92). -/
def execDecAbsX (w : Addr) (s : State) : Host.Outcome State Fault Refusal := modifyMemory .dec (.absoluteX w) s

/-- INX (R142). -/
def execInx (s : State) : Host.Outcome State Fault Refusal := modifyRegister .inc .x s

/-- INY (R143). -/
def execIny (s : State) : Host.Outcome State Fault Refusal := modifyRegister .inc .y s

/-- DEX (R144). -/
def execDex (s : State) : Host.Outcome State Fault Refusal := modifyRegister .dec .x s

/-- DEY (R145). -/
def execDey (s : State) : Host.Outcome State Fault Refusal := modifyRegister .dec .y s

end Sys2Proof.Machine
end

