-- ==== Sys2Proof/Machine/LoadStore.lean ====
section
/-! DEFINITION. Load and store instructions (43_load_store.md rules R110 to R115), one definition per row. -/

namespace Sys2Proof.Machine

/-- The rule of the loads (R110 to R112): the operand value goes through the ALU into the register, and sets Z and N. -/
def loadRegister (r : Reg) (src : Source) (s : State) : Host.Outcome State Fault Refusal :=
  let v := alu .pass 0 (readOperand src s)
  retire s (sourceBytes src) ((s.setReg r v).command (.zn v))

/-- The rule of the stores (R113 to R115): one byte written at the effective address; no flag changes. -/
def storeRegister (r : Reg) (f : AddrForm) (s : State) : Host.Outcome State Fault Refusal :=
  retire s (formBytes f) ((s.store (effectiveAddress f s) (s.getReg r)).command .keep)

/-- LDA Immediate (R110, R87). -/
def execLdaImm (b : Byte) (s : State) : Host.Outcome State Fault Refusal := loadRegister .a (.immediate b) s

/-- LDA ZeroPage (R110, R88). -/
def execLdaZp (b : Byte) (s : State) : Host.Outcome State Fault Refusal := loadRegister .a (.memory (.zeroPage b)) s

/-- LDA ZeroPageX (R110, R89). -/
def execLdaZpX (b : Byte) (s : State) : Host.Outcome State Fault Refusal := loadRegister .a (.memory (.zeroPageX b)) s

/-- LDA Absolute (R110, R91). -/
def execLdaAbs (w : Addr) (s : State) : Host.Outcome State Fault Refusal := loadRegister .a (.memory (.absolute w)) s

/-- LDA AbsoluteX (R110, R92). -/
def execLdaAbsX (w : Addr) (s : State) : Host.Outcome State Fault Refusal :=
  loadRegister .a (.memory (.absoluteX w)) s

/-- LDA AbsoluteY (R110, R93). -/
def execLdaAbsY (w : Addr) (s : State) : Host.Outcome State Fault Refusal :=
  loadRegister .a (.memory (.absoluteY w)) s

/-- LDA X-Indexed-Indirect (R110, R94). -/
def execLdaIndX (b : Byte) (s : State) : Host.Outcome State Fault Refusal :=
  loadRegister .a (.memory (.xIndexedIndirect b)) s

/-- LDA Indirect-Y-Indexed (R110, R95). -/
def execLdaIndY (b : Byte) (s : State) : Host.Outcome State Fault Refusal :=
  loadRegister .a (.memory (.indirectYIndexed b)) s

/-- LDX Immediate (R111, R87). -/
def execLdxImm (b : Byte) (s : State) : Host.Outcome State Fault Refusal := loadRegister .x (.immediate b) s

/-- LDX ZeroPage (R111, R88). -/
def execLdxZp (b : Byte) (s : State) : Host.Outcome State Fault Refusal := loadRegister .x (.memory (.zeroPage b)) s

/-- LDX ZeroPageY (R111, R90). -/
def execLdxZpY (b : Byte) (s : State) : Host.Outcome State Fault Refusal := loadRegister .x (.memory (.zeroPageY b)) s

/-- LDX Absolute (R111, R91). -/
def execLdxAbs (w : Addr) (s : State) : Host.Outcome State Fault Refusal := loadRegister .x (.memory (.absolute w)) s

/-- LDX AbsoluteY (R111, R93). -/
def execLdxAbsY (w : Addr) (s : State) : Host.Outcome State Fault Refusal :=
  loadRegister .x (.memory (.absoluteY w)) s

/-- LDY Immediate (R112, R87). -/
def execLdyImm (b : Byte) (s : State) : Host.Outcome State Fault Refusal := loadRegister .y (.immediate b) s

/-- LDY ZeroPage (R112, R88). -/
def execLdyZp (b : Byte) (s : State) : Host.Outcome State Fault Refusal := loadRegister .y (.memory (.zeroPage b)) s

/-- LDY ZeroPageX (R112, R89). -/
def execLdyZpX (b : Byte) (s : State) : Host.Outcome State Fault Refusal := loadRegister .y (.memory (.zeroPageX b)) s

/-- LDY Absolute (R112, R91). -/
def execLdyAbs (w : Addr) (s : State) : Host.Outcome State Fault Refusal := loadRegister .y (.memory (.absolute w)) s

/-- LDY AbsoluteX (R112, R92). -/
def execLdyAbsX (w : Addr) (s : State) : Host.Outcome State Fault Refusal :=
  loadRegister .y (.memory (.absoluteX w)) s

/-- STA ZeroPage (R113, R88). -/
def execStaZp (b : Byte) (s : State) : Host.Outcome State Fault Refusal := storeRegister .a (.zeroPage b) s

/-- STA ZeroPageX (R113, R89). -/
def execStaZpX (b : Byte) (s : State) : Host.Outcome State Fault Refusal := storeRegister .a (.zeroPageX b) s

/-- STA Absolute (R113, R91). -/
def execStaAbs (w : Addr) (s : State) : Host.Outcome State Fault Refusal := storeRegister .a (.absolute w) s

/-- STA AbsoluteX (R113, R92). -/
def execStaAbsX (w : Addr) (s : State) : Host.Outcome State Fault Refusal := storeRegister .a (.absoluteX w) s

/-- STA AbsoluteY (R113, R93). -/
def execStaAbsY (w : Addr) (s : State) : Host.Outcome State Fault Refusal := storeRegister .a (.absoluteY w) s

/-- STA X-Indexed-Indirect (R113, R94). -/
def execStaIndX (b : Byte) (s : State) : Host.Outcome State Fault Refusal := storeRegister .a (.xIndexedIndirect b) s

/-- STA Indirect-Y-Indexed (R113, R95). -/
def execStaIndY (b : Byte) (s : State) : Host.Outcome State Fault Refusal := storeRegister .a (.indirectYIndexed b) s

/-- STX ZeroPage (R114, R88). -/
def execStxZp (b : Byte) (s : State) : Host.Outcome State Fault Refusal := storeRegister .x (.zeroPage b) s

/-- STX ZeroPageY (R114, R90). -/
def execStxZpY (b : Byte) (s : State) : Host.Outcome State Fault Refusal := storeRegister .x (.zeroPageY b) s

/-- STX Absolute (R114, R91). -/
def execStxAbs (w : Addr) (s : State) : Host.Outcome State Fault Refusal := storeRegister .x (.absolute w) s

/-- STY ZeroPage (R115, R88). -/
def execStyZp (b : Byte) (s : State) : Host.Outcome State Fault Refusal := storeRegister .y (.zeroPage b) s

/-- STY ZeroPageX (R115, R89). -/
def execStyZpX (b : Byte) (s : State) : Host.Outcome State Fault Refusal := storeRegister .y (.zeroPageX b) s

/-- STY Absolute (R115, R91). -/
def execStyAbs (w : Addr) (s : State) : Host.Outcome State Fault Refusal := storeRegister .y (.absolute w) s

end Sys2Proof.Machine
end

