-- ==== Sys2Proof/Machine/Logical.lean ====
section
/-! DEFINITION. Logical instructions (47_logical.md rules R150 to R153). -/

namespace Sys2Proof.Machine

/-- The rule of AND, ORA, EOR (R150 to R152): A combined with the operand, Z and N from the result. -/
def combineA (op : AluOp) (src : Source) (s : State) : Host.Outcome State Fault Refusal :=
  let res := alu op s.a (readOperand src s)
  retire s (sourceBytes src) ((s.setReg .a res).command (.zn res))

/-- The rule of BIT (R153): only flags change. -/
def bitTestA (f : AddrForm) (s : State) : Host.Outcome State Fault Refusal :=
  retire s (formBytes f) (s.command (.bitTest s.a (readOperand (.memory f) s)))

/-- AND Immediate (R150, R87). -/
def execAndImm (b : Byte) (s : State) : Host.Outcome State Fault Refusal := combineA .and (.immediate b) s

/-- AND ZeroPage (R150, R88). -/
def execAndZp (b : Byte) (s : State) : Host.Outcome State Fault Refusal := combineA .and (.memory (.zeroPage b)) s

/-- AND ZeroPageX (R150, R89). -/
def execAndZpX (b : Byte) (s : State) : Host.Outcome State Fault Refusal := combineA .and (.memory (.zeroPageX b)) s

/-- AND Absolute (R150, R91). -/
def execAndAbs (w : Addr) (s : State) : Host.Outcome State Fault Refusal := combineA .and (.memory (.absolute w)) s

/-- AND AbsoluteX (R150, R92). -/
def execAndAbsX (w : Addr) (s : State) : Host.Outcome State Fault Refusal := combineA .and (.memory (.absoluteX w)) s

/-- AND AbsoluteY (R150, R93). -/
def execAndAbsY (w : Addr) (s : State) : Host.Outcome State Fault Refusal := combineA .and (.memory (.absoluteY w)) s

/-- AND X-Indexed-Indirect (R150, R94). -/
def execAndIndX (b : Byte) (s : State) : Host.Outcome State Fault Refusal :=
  combineA .and (.memory (.xIndexedIndirect b)) s

/-- AND Indirect-Y-Indexed (R150, R95). -/
def execAndIndY (b : Byte) (s : State) : Host.Outcome State Fault Refusal :=
  combineA .and (.memory (.indirectYIndexed b)) s

/-- ORA Immediate (R151, R87). -/
def execOraImm (b : Byte) (s : State) : Host.Outcome State Fault Refusal := combineA .or (.immediate b) s

/-- ORA ZeroPage (R151, R88). -/
def execOraZp (b : Byte) (s : State) : Host.Outcome State Fault Refusal := combineA .or (.memory (.zeroPage b)) s

/-- ORA ZeroPageX (R151, R89). -/
def execOraZpX (b : Byte) (s : State) : Host.Outcome State Fault Refusal := combineA .or (.memory (.zeroPageX b)) s

/-- ORA Absolute (R151, R91). -/
def execOraAbs (w : Addr) (s : State) : Host.Outcome State Fault Refusal := combineA .or (.memory (.absolute w)) s

/-- ORA AbsoluteX (R151, R92). -/
def execOraAbsX (w : Addr) (s : State) : Host.Outcome State Fault Refusal := combineA .or (.memory (.absoluteX w)) s

/-- ORA AbsoluteY (R151, R93). -/
def execOraAbsY (w : Addr) (s : State) : Host.Outcome State Fault Refusal := combineA .or (.memory (.absoluteY w)) s

/-- ORA X-Indexed-Indirect (R151, R94). -/
def execOraIndX (b : Byte) (s : State) : Host.Outcome State Fault Refusal :=
  combineA .or (.memory (.xIndexedIndirect b)) s

/-- ORA Indirect-Y-Indexed (R151, R95). -/
def execOraIndY (b : Byte) (s : State) : Host.Outcome State Fault Refusal :=
  combineA .or (.memory (.indirectYIndexed b)) s

/-- EOR Immediate (R152, R87). -/
def execEorImm (b : Byte) (s : State) : Host.Outcome State Fault Refusal := combineA .xor (.immediate b) s

/-- EOR ZeroPage (R152, R88). -/
def execEorZp (b : Byte) (s : State) : Host.Outcome State Fault Refusal := combineA .xor (.memory (.zeroPage b)) s

/-- EOR ZeroPageX (R152, R89). -/
def execEorZpX (b : Byte) (s : State) : Host.Outcome State Fault Refusal := combineA .xor (.memory (.zeroPageX b)) s

/-- EOR Absolute (R152, R91). -/
def execEorAbs (w : Addr) (s : State) : Host.Outcome State Fault Refusal := combineA .xor (.memory (.absolute w)) s

/-- EOR AbsoluteX (R152, R92). -/
def execEorAbsX (w : Addr) (s : State) : Host.Outcome State Fault Refusal := combineA .xor (.memory (.absoluteX w)) s

/-- EOR AbsoluteY (R152, R93). -/
def execEorAbsY (w : Addr) (s : State) : Host.Outcome State Fault Refusal := combineA .xor (.memory (.absoluteY w)) s

/-- EOR X-Indexed-Indirect (R152, R94). -/
def execEorIndX (b : Byte) (s : State) : Host.Outcome State Fault Refusal :=
  combineA .xor (.memory (.xIndexedIndirect b)) s

/-- EOR Indirect-Y-Indexed (R152, R95). -/
def execEorIndY (b : Byte) (s : State) : Host.Outcome State Fault Refusal :=
  combineA .xor (.memory (.indirectYIndexed b)) s

/-- BIT ZeroPage (R153, R88). -/
def execBitZp (b : Byte) (s : State) : Host.Outcome State Fault Refusal := bitTestA (.zeroPage b) s

/-- BIT Absolute (R153, R91). -/
def execBitAbs (w : Addr) (s : State) : Host.Outcome State Fault Refusal := bitTestA (.absolute w) s

end Sys2Proof.Machine
end

