-- ==== Sys2Proof/Machine/Stack.lean ====
section
/-! DEFINITION. Stack instructions (45_stack.md rules R132 to R135). -/

namespace Sys2Proof.Machine

/-- PHA (R132). -/
def execPha (s : State) : Host.Outcome State Fault Refusal :=
  retire s 0 ((s.push s.a).command .keep)

/-- PHP (R133): the seven flags packed, bit 5 from P_BIT5, bit 4 the stored B. -/
def execPhp (s : State) : Host.Outcome State Fault Refusal :=
  retire s 0 ((s.push (statusByte s)).command .keep)

/-- PLA (R134). -/
def execPla (s : State) : Host.Outcome State Fault Refusal :=
  let v := alu .pass 0 s.pulledByte
  retire s 0 ((s.pulled.setReg .a v).command (.zn v))

/-- PLP (R135): all seven flags from the pulled byte. -/
def execPlp (s : State) : Host.Outcome State Fault Refusal :=
  retire s 0 (s.pulled.command (.loadAll s.pulledByte))

end Sys2Proof.Machine
end

