-- ==== Sys2Proof/Machine/Transfer.lean ====
section
/-! DEFINITION. Register transfer instructions (44_transfer.md rules R120 to R125). -/

namespace Sys2Proof.Machine

/-- The rule of the transfers into a general register (R120 to R124): the value through the ALU, Z and N from it. -/
def transferTo (r : Reg) (source : Byte) (s : State) : Host.Outcome State Fault Refusal :=
  let v := alu .pass 0 source
  retire s 0 ((s.setReg r v).command (.zn v))

/-- TAX (R120). -/
def execTax (s : State) : Host.Outcome State Fault Refusal := transferTo .x s.a s

/-- TAY (R121). -/
def execTay (s : State) : Host.Outcome State Fault Refusal := transferTo .y s.a s

/-- TXA (R122). -/
def execTxa (s : State) : Host.Outcome State Fault Refusal := transferTo .a s.x s

/-- TYA (R123). -/
def execTya (s : State) : Host.Outcome State Fault Refusal := transferTo .a s.y s

/-- TSX (R124). -/
def execTsx (s : State) : Host.Outcome State Fault Refusal := transferTo .x s.sp s

/-- TXS (R125): the one transfer that changes no flag. -/
def execTxs (s : State) : Host.Outcome State Fault Refusal :=
  retire s 0 ({ s with sp := alu .pass 0 s.x }.command .keep)

end Sys2Proof.Machine
end

