-- ==== Sys2Proof/Machine/Fetch.lean ====
section
/-! DEFINITION. The fetch of a step (40_dispatch.md rule R70) and what the decoder hands to the executor, a fault among
the possibilities (60_exceptions.md rules R181, R182). -/

namespace Sys2Proof.Machine

/-- What the controller carries out in a step of a RUNNING machine: an instruction, or the entry of a fault. -/
inductive Fetched where
  | instr (i : Instr)
  | trap (f : FaultRecord)
deriving DecidableEq, Repr

/-- The decoder's answer as the controller takes it: both faults record the opcode byte and `pc0` (R181, R182). -/
def handOver (pc0 : Addr) (d : Decoded) : Fetched :=
  match d with
  | .ok i => .instr i
  | .invalidOpcode op => .trap (.decodeFault op pc0)
  | .unsupportedPair op _ _ => .trap (.unsupportedAddressingFault op pc0)

/-- Fetch and decode at PC (R70): the opcode at `pc0`, operand bytes at `pc0 +16 1` and `pc0 +16 2` (R50, R98). Reads
have no side effect (R38), so the window is of three bytes whatever the length; `decodeBytes` looks at no more than the
instruction has (log 5). -/
def fetchInstr (s : State) : Fetched :=
  handOver s.pc (decodeBytes (s.mem.read s.pc) (s.mem.read (s.pc + 1)) (s.mem.read (s.pc + 2)))

/-- The executor handed a (mnemonic, mode) pair for an opcode byte at PC (R182), any of the 35 × 13. -/
def fetchPair (op : Byte) (mn : Mnemonic) (m : Mode) (s : State) : Fetched :=
  handOver s.pc (decodePair op mn m (s.mem.read (s.pc + 1)) (s.mem.read (s.pc + 2)))

/-- Memory with the three bytes of a table word at an address (log 4). -/
def placeTableWord (m : Memory) (pc0 : Addr) (nbits w : Nat) : Memory :=
  ((m.write pc0 (tableByte nbits w 0)).write (pc0 + 1) (tableByte nbits w 1)).write (pc0 + 2) (tableByte nbits w 2)

end Sys2Proof.Machine
end

