-- ==== Sys2Proof/Machine/Step.lean ====
section
/-! DEFINITION. `Step` and `Run` (40_dispatch.md rules R70 to R72). -/

namespace Sys2Proof.Machine

/-- The executor's effect, or the fault entry, on the state the step began in (R70, R183). -/
def perform (f : Fetched) (s : State) : Host.Outcome State Fault Refusal :=
  match f with
  | .instr i => exec i s
  | .trap record => .next (raiseFault record s)

/-- The executor handed a pair, total over all 35 × 13 (R182): a legal pair executes, any other takes the
UnsupportedAddressingFault. The decoder sends only legal pairs (the spec's decision D22, log 16). -/
def executePair (op : Byte) (mn : Mnemonic) (m : Mode) (s : State) : Host.Outcome State Fault Refusal :=
  perform (fetchPair op mn m s) s

/-- `Step()` (R70). A HALTED machine does nothing (R72; the spec's decision D11, log 11). -/
def step (s : State) : Host.Outcome State Fault Refusal :=
  match s.runState with
  | .halted => .next s
  | .running => perform (fetchInstr s) s

/-- `s` with an instruction of the opcode table stored at PC, ready to run: the load of R45, and the machine RUNNING with
no fault on record, which the fetch needs (R70, R189). See log 4. -/
def State.withFetchWord (s : State) (nbits w : Nat) : State :=
  { s with mem := placeTableWord s.mem s.pc nbits w, runState := .running, fault := .none }

/-- `Run()` (R71) under fuel: `Step` repeated until HALTED, and the state it then leaves; `none` where the fuel ends
first. `Run` itself has no bound (the spec's decision D25, log 20). -/
def runToHalt : Nat → State → Option State
  | 0, s => if s.runState = .halted then some s else none
  | fuel + 1, s =>
    if s.runState = .halted then some s
    else
      match step s with
      | .next t => runToHalt fuel t
      | .fault _ => none
      | .refused _ => none

end Sys2Proof.Machine
end

