-- ==== Sys2Proof/Safety.lean ====
section
/-! DEFINITION. How a run stands (60_exceptions.md rule R189, 70_reset_and_hazards.md rule R210), in the terms the
statements use, and the invariant of the machine. -/

namespace Sys2Proof.Machine

/-- The run ended by BRK: the defined end (R189, second row; R210). -/
abbrev State.endedWell (s : State) : Prop := s.runState = .halted ∧ s.fault = .none

/-- The run ended by a fault (R189, third row). -/
abbrev State.endedBadly (s : State) : Prop := s.runState = .halted ∧ s.fault ≠ .none

/-- The three ways a run can stand (R189): RUNNING with no record; HALTED by BRK with PC = 0xFFFE and B = 1; HALTED by a
fault with PC = `fault.pc`. -/
def State.stands (s : State) : Bool :=
  match s.runState, s.fault with
  | .running, .none => true
  | .running, _ => false
  | .halted, .none => decide (s.pc = Config.brkPC) && s.flags.b
  | .halted, .decodeFault _ pc => decide (s.pc = pc)
  | .halted, .unsupportedAddressingFault _ pc => decide (s.pc = pc)

/-- The invariant: the memory is in its canonical form (log 6) and the run stands in one of the ways of R189. -/
def State.inv (s : State) : Bool := Memory.wf s.mem && s.stands

/-! ## Terms of the statements -/

/-- Z and N from a result, by the value's range (42_alu_flags.md rule R101); the other five flags kept. -/
def znFrom (v : Byte) (f : Flags) : Flags := { f with z := decide (v = 0), n := decide (128 ≤ v.toNat) }

/-- The instruction's total length as an address increment, from the table of rule R52. -/
def lengthOf (i : Instr) : Addr := BitVec.ofNat 16 i.length

/-- The addresses an instruction stores to, computed as its meaning computes them (20_memory.md rule R38, last column):
the effective address of the stores, INC and DEC; the stack address of a push; the two of a JSR that pushes. -/
def storedAddresses (i : Instr) (s : State) : List Addr :=
  match i.mnemonic, i.operand with
  | .sta, .source (.memory f) | .stx, .source (.memory f) | .sty, .source (.memory f) => [effectiveAddress f s]
  | .inc, .source (.memory f) | .dec, .source (.memory f) => [effectiveAddress f s]
  | .pha, _ | .php, _ => [stackAddr s.sp]
  | .jsr, _ => if s.params.jsrPushesReturn then [stackAddr s.sp, stackAddr (s.sp - 1)] else []
  | _, _ => []

/-- The byte an instruction stores at one of its `storedAddresses`, from the state before it (20_memory.md rule R38, last
column; for JSR rule R160, high byte first, log 15); for an instruction that stores nothing, the byte the address keeps. -/
def storedByte (i : Instr) (s : State) (k : Addr) : Byte :=
  match i.mnemonic with
  | .sta | .pha => s.a
  | .stx => s.x
  | .sty => s.y
  | .php => packP s.params.pBit5 s.flags
  | .inc => BitVec.ofNat 8 ((s.mem.read k).toNat + 1)
  | .dec => BitVec.ofNat 8 ((s.mem.read k).toNat + 255)
  | .jsr =>
    if k = stackAddr s.sp then BitVec.ofNat 8 ((s.pc.toNat + 2) % 65536 / 256)
    else BitVec.ofNat 8 ((s.pc.toNat + 2) % 256)
  | _ => s.mem.read k

/-- What two runs may leave in one flag when no OTHER flag reaches it: the same value in both, or its own old value in
each (10_state.md rule R17). -/
abbrev sameOrKept (old new old' new' : Bool) : Prop := new' = new ∨ (new = old ∧ new' = old')

/-- The 168 unassigned opcode bytes, as rule R56 of 30_encoding.md lists them. -/
def unassignedBytes : List Byte :=
  [0x02, 0x03, 0x04, 0x06, 0x07, 0x0A, 0x0B, 0x0C, 0x0E, 0x0F, 0x10, 0x12, 0x13, 0x14, 0x16, 0x17, 0x1A, 0x1B,
   0x1C, 0x1E, 0x1F] ++
  [0x22, 0x23, 0x26, 0x27, 0x2A, 0x2B, 0x2E, 0x2F, 0x30, 0x32, 0x33, 0x34, 0x36, 0x37, 0x3A, 0x3B, 0x3C, 0x3E,
   0x3F] ++
  [0x40, 0x42, 0x43, 0x44, 0x46, 0x47, 0x4A, 0x4B, 0x4C, 0x4E, 0x4F, 0x50, 0x52, 0x53, 0x54, 0x56, 0x57, 0x5A,
   0x5B, 0x5C, 0x5E, 0x5F] ++
  [0x60, 0x61, 0x62, 0x63, 0x64, 0x65, 0x66, 0x67, 0x69, 0x6A, 0x6B, 0x6C, 0x6D, 0x6E, 0x6F] ++
  [0x70, 0x71, 0x72, 0x73, 0x74, 0x75, 0x76, 0x77, 0x79, 0x7A, 0x7B, 0x7C, 0x7D, 0x7E, 0x7F] ++
  [0x80, 0x82, 0x83, 0x87, 0x89, 0x8B, 0x8F, 0x90, 0x92, 0x93, 0x97, 0x9B, 0x9C, 0x9E, 0x9F] ++
  [0xA3, 0xA7, 0xAB, 0xAF, 0xB0, 0xB2, 0xB3, 0xB7, 0xBB, 0xBF] ++
  [0xC0, 0xC1, 0xC2, 0xC3, 0xC4, 0xC5, 0xC7, 0xC9, 0xCB, 0xCC, 0xCD, 0xCF, 0xD0, 0xD1, 0xD2, 0xD3, 0xD4, 0xD5,
   0xD7, 0xD9, 0xDA, 0xDB, 0xDC, 0xDD, 0xDF] ++
  [0xE0, 0xE1, 0xE2, 0xE3, 0xE4, 0xE5, 0xE7, 0xE9, 0xEA, 0xEB, 0xEC, 0xED, 0xEF, 0xF0, 0xF1, 0xF2, 0xF3, 0xF4,
   0xF5, 0xF7, 0xF9, 0xFA, 0xFB, 0xFC, 0xFD, 0xFF]

end Sys2Proof.Machine
end

