-- ==== Sys2Proof/Certificates/Slice0/Obligations.lean ====
section
/-! DEFINITION. The statements for the provers. Each docstring names the rule of spec/ it formalises, and where a clause
rests on a decision of the spec (92_eei_decisions.md) or of the model (a log entry) it says so. -/

open Sys2Proof Sys2Proof.Machine

/-! ## Encoding and decoding -/

/-- Encoding an instruction and decoding it again gives it back with every operand, and leaves the bytes after it
untouched: decoding looks at no byte past the instruction's length (R50 to R53; opcode bytes by D5, log 8). -/
def Obligations.DecodeOfEncode : Prop :=
  ∀ (i : Instr) (rest : List Byte), decode (encode i ++ rest) = .ok i rest

/-- Whatever bytes decode to an instruction are that instruction's encoding: each encoding has one meaning (R50, R51;
opcode bytes by D5, log 8). -/
def Obligations.EncodeOfDecode : Prop :=
  ∀ (bytes : List Byte) (i : Instr) (rest : List Byte), decode bytes = .ok i rest → bytes = encode i ++ rest

/-- The bytes with no decoding are exactly the 168 that R56 lists (the spec's decisions D5 and D18, log 8, log 19). -/
def Obligations.UnassignedBytesAreTheListed : Prop :=
  ∀ op : Byte, decodeOpcode op = none ↔ op ∈ unassignedBytes

/-- Each legal pair of R57 has exactly one opcode byte and no other pair has any (the spec's decisions D5, D6, log 8). -/
def Obligations.LegalPairsHaveOneOpcode : Prop :=
  (∀ (mn : Mnemonic) (m : Mode), legalPair mn m = true ↔ ∃ op : Byte, decodeOpcode op = some (mn, m)) ∧
  (∀ (op op' : Byte) (p : Mnemonic × Mode), decodeOpcode op = some p → decodeOpcode op' = some p → op = op')

/-- R51: two fetches of the same opcode byte give the same mnemonic, mode and length, whatever the operand bytes and
whatever the rest of the two states. -/
def Obligations.OpcodeByteAloneDecides : Prop :=
  ∀ (s s' : State) (i : Instr), s.mem.read s.pc = s'.mem.read s'.pc → fetchInstr s = .instr i →
    ∃ j : Instr, fetchInstr s' = .instr j ∧ j.mnemonic = i.mnemonic ∧ j.mode = i.mode ∧ j.length = i.length

/-- Words written out from the source's scenarios S-1 to S-6 (95_test_vectors.md) and one of each remaining family
(opcode bytes of those by D5, log 8). -/
def Obligations.WrittenOutWordsDecode : Prop :=
  decodeTableWord 16 0x84A9 = some (.ldaImm 0x84) ∧ decodeTableWord 16 0xFFB5 = some (.ldaZpX 0xFF) ∧
  decodeTableWord 16 0x02A1 = some (.ldaIndX 0x02) ∧ decodeTableWord 16 0x02B1 = some (.ldaIndY 0x02) ∧
  decodeTableWord 24 0x423220 = some (.jsrAbs 0x4232) ∧ decodeTableWord 24 0x30002C = some (.bitAbs 0x3000) ∧
  decodeTableWord 24 0x12FF9D = some (.staAbsX 0x12FF) ∧ decodeTableWord 16 0xF0B6 = some (.ldxZpY 0xF0) ∧
  decodeTableWord 8 0x9A = some .txs ∧ decodeTableWord 8 0x28 = some .plp ∧
  decodeTableWord 24 0x2FFFDE = some (.decAbsX 0x2FFF) ∧ decodeTableWord 8 0x00 = some .brk ∧
  decodeTableWord 8 0xF8 = some .sed ∧ decodeTableWord 8 0xEA = none

/-- The bytes at PC and after it, wrapping at 0xFFFF, are the encoding of the instruction a fetch gives: operand bytes
come from `pc0 +16 1` and `pc0 +16 2` (R50, R53, R98). -/
def Obligations.FetchReadsTheEncodingAtPc : Prop :=
  ∀ (s : State) (i : Instr), fetchInstr s = .instr i →
    ∀ k : Nat, k < i.length → (encode i)[k]? = some (s.mem.read (s.pc + BitVec.ofNat 16 k))

/-! ## Memory -/

/-- R33: a word read is the byte at the address plus 256 times the byte at the next one, which wraps only at 0xFFFF. -/
def Obligations.WordReadIsLittleEndianAndWraps : Prop :=
  (∀ (m : Memory) (a : Addr), (m.readWord a).toNat =
    (m.read a).toNat + 256 * (m.read (BitVec.ofNat 16 ((a.toNat + 1) % 65536))).toNat) ∧
  (∀ m : Memory, (m.readWord 0xFFFF).toNat = (m.read 0xFFFF).toNat + 256 * (m.read 0x0000).toNat) ∧
  (∀ m : Memory, (m.readWord 0x00FF).toNat = (m.read 0x00FF).toNat + 256 * (m.read 0x0100).toNat)

/-- The load interface writes exactly its byte, or its word's low byte and then its high byte at the next address, and
changes nothing else, whatever the run state (R34, R45, R208). -/
def Obligations.HostLoadWritesItsBytesOnly : Prop :=
  ∀ (s : State) (a : Addr) (v : Byte) (w : Addr),
    hostLoadByte a v s = { s with mem := (hostLoadByte a v s).mem } ∧
    (∀ k : Addr, (hostLoadByte a v s).mem.read k = if k = a then v else s.mem.read k) ∧
    hostLoadWord a w s = { s with mem := (hostLoadWord a w s).mem } ∧
    (∀ k : Addr, (hostLoadWord a w s).mem.read k =
      if k = a + 1 then BitVec.ofNat 8 (w.toNat / 256)
      else if k = a then BitVec.ofNat 8 (w.toNat % 256) else s.mem.read k)

/-- Two memories in the canonical form that hold the same 65,536 bytes are the same list (the model's representation,
log 6). -/
def Obligations.CanonicalMemoriesAreEqualWhenTheirBytesAre : Prop :=
  ∀ m m' : Memory, Memory.wf m = true → Memory.wf m' = true → (∀ a : Addr, m.read a = m'.read a) → m = m'

/-! ## The resolver -/

/-- R88, R89, R90: the zero-page forms have one operand byte; the indexed ones add modulo 256 and stay in page zero. -/
def Obligations.ZeroPageFormsStayInPageZero : Prop :=
  ∀ (b : Byte) (s : State),
    ((effectiveAddress (.zeroPage b) s).toNat = b.toNat ∧ formBytes (.zeroPage b) = 1) ∧
    ((effectiveAddress (.zeroPageX b) s).toNat = (b.toNat + s.x.toNat) % 256 ∧ formBytes (.zeroPageX b) = 1) ∧
    ((effectiveAddress (.zeroPageY b) s).toNat = (b.toNat + s.y.toNat) % 256 ∧ formBytes (.zeroPageY b) = 1)

/-- R92, R93: the absolute indexed forms have two operand bytes and add modulo 65,536; the plain form adds nothing. -/
def Obligations.AbsoluteFormsWrapAtSixteenBits : Prop :=
  ∀ (w : Addr) (s : State),
    (effectiveAddress (.absolute w) s = w ∧ formBytes (.absolute w) = 2) ∧
    ((effectiveAddress (.absoluteX w) s).toNat = (w.toNat + s.x.toNat) % 65536 ∧ formBytes (.absoluteX w) = 2) ∧
    ((effectiveAddress (.absoluteY w) s).toNat = (w.toNat + s.y.toNat) % 65536 ∧ formBytes (.absoluteY w) = 2)

/-- The indirect forms read a pointer word in the zero page. The pointer's high byte comes from the next 16-bit address,
so from 0x0100 for a pointer at 0xFF: the spec's decision D9 (log 9). X is added to the pointer modulo 256 before the
read, Y to the word modulo 65,536 after it (R94, R95). -/
def Obligations.IndirectFormsReadAPointer : Prop :=
  ∀ (b : Byte) (s : State),
    (effectiveAddress (.xIndexedIndirect b) s).toNat =
      (s.mem.read (BitVec.ofNat 16 ((b.toNat + s.x.toNat) % 256))).toNat +
        256 * (s.mem.read (BitVec.ofNat 16 ((b.toNat + s.x.toNat) % 256 + 1))).toNat ∧
    (effectiveAddress (.indirectYIndexed b) s).toNat =
      ((s.mem.read (BitVec.ofNat 16 b.toNat)).toNat + 256 * (s.mem.read (BitVec.ofNat 16 (b.toNat + 1))).toNat
        + s.y.toNat) % 65536

/-- The resolver's answer for each of the ten modes, from the operand bytes in memory after the opcode (the table of R99).
The pointer word of the last two clauses takes its high byte from the next 16-bit address: the spec's decision D9
(log 9). -/
def Obligations.ResolverFollowsItsTable : Prop :=
  ∀ (pc0 : Addr) (s : State),
    resolveAt .implicit pc0 s = some (0, .none) ∧
    resolveAt .immediate pc0 s = some (1, .imm (s.mem.read (pc0 + 1))) ∧
    resolveAt .zeroPage pc0 s = some (1, .addr (zext16 (s.mem.read (pc0 + 1)))) ∧
    resolveAt .zeroPageX pc0 s = some (1, .addr (zext16 (s.mem.read (pc0 + 1) + s.x))) ∧
    resolveAt .zeroPageY pc0 s = some (1, .addr (zext16 (s.mem.read (pc0 + 1) + s.y))) ∧
    resolveAt .absolute pc0 s = some (2, .addr (s.mem.readWord (pc0 + 1))) ∧
    resolveAt .absoluteX pc0 s = some (2, .addr (s.mem.readWord (pc0 + 1) + zext16 s.x)) ∧
    resolveAt .absoluteY pc0 s = some (2, .addr (s.mem.readWord (pc0 + 1) + zext16 s.y)) ∧
    resolveAt .xIndexedIndirect pc0 s =
      some (1, .addr (s.mem.readWord (zext16 (s.mem.read (pc0 + 1) + s.x)))) ∧
    resolveAt .indirectYIndexed pc0 s =
      some (1, .addr (s.mem.readWord (zext16 (s.mem.read (pc0 + 1))) + zext16 s.y))

/-! ## The ALU, the flag unit and the status byte -/

/-- R100: the six ALU operations; increments and decrements are modulo 256, the others bit by bit. -/
def Obligations.AluComputesItsTable : Prop :=
  ∀ (a b : Byte),
    alu .pass a b = b ∧ (alu .inc a b).toNat = (b.toNat + 1) % 256 ∧ (alu .dec a b).toNat = (b.toNat + 255) % 256 ∧
    (∀ k : Nat, (alu .and a b).getLsbD k = (a.getLsbD k && b.getLsbD k)) ∧
    (∀ k : Nat, (alu .or a b).getLsbD k = (a.getLsbD k || b.getLsbD k)) ∧
    (∀ k : Nat, (alu .xor a b).getLsbD k = (a.getLsbD k != b.getLsbD k))

/-- R101: exactly the three cases of SetZN by the value's range, the other five flags unchanged; and SetZN is the only
way an instruction sets Z and N from a result, BIT and PLP aside. -/
def Obligations.SetZNHasThreeCases : Prop :=
  ∀ (v : Byte) (f : Flags),
    (v.toNat = 0 → (setZN v f).z = true ∧ (setZN v f).n = false) ∧
    (1 ≤ v.toNat → v.toNat ≤ 0x7F → (setZN v f).z = false ∧ (setZN v f).n = false) ∧
    (0x80 ≤ v.toNat → (setZN v f).z = false ∧ (setZN v f).n = true) ∧
    setZN v f = { f with z := (setZN v f).z, n := (setZN v f).n } ∧
    ¬ ((setZN v f).z = true ∧ (setZN v f).n = true) ∧
    (∀ (i : Instr) (s t : State), exec i s = .next t → i.mnemonic ≠ .bit → i.mnemonic ≠ .plp →
      t.flags.z ≠ s.flags.z ∨ t.flags.n ≠ s.flags.n → ∃ r : Byte, t.flags = setZN r s.flags)

/-- R102: Z from `a & v`; V and N are bits 6 and 7 of `v` itself; C, I, D, B unchanged. -/
def Obligations.BitFlagsComeFromTheOperand : Prop :=
  ∀ (a v : Byte) (f : Flags),
    ((bitFlags a v f).z = true ↔ a &&& v = 0) ∧
    ((bitFlags a v f).v = true ↔ 64 ≤ v.toNat % 128) ∧
    ((bitFlags a v f).n = true ↔ 128 ≤ v.toNat) ∧
    bitFlags a v f = { f with z := (bitFlags a v f).z, v := (bitFlags a v f).v, n := (bitFlags a v f).n }

/-- R16: packing then unpacking gives the flags back, and unpacking then packing keeps every bit but bit 5, which
becomes P_BIT5, for both values of P_BIT5. -/
def Obligations.StatusByteRoundTrip : Prop :=
  (∀ (bit5 : Bool) (f : Flags), unpackP (packP bit5 f) = f) ∧
  (∀ (bit5 : Bool) (b : Byte), packP bit5 (unpackP b) = (b &&& 0xDF) ||| (BitVec.ofNat 8 bit5.toNat <<< 5))

/-- The layout of the status byte, bit by bit, and its loading (R14, R15). That bit 4 is the stored B and bit 5 the
parameter P_BIT5 are the spec's decisions D19 and D4 (log 14, log 1). -/
def Obligations.StatusByteLayout : Prop :=
  (∀ (bit5 : Bool) (f : Flags) (k : Nat), (packP bit5 f).getLsbD k =
    match k with
    | 0 => f.c | 1 => f.z | 2 => f.i | 3 => f.d | 4 => f.b | 5 => bit5 | 6 => f.v | 7 => f.n
    | _ => false) ∧
  (∀ b : Byte, unpackP b =
    { c := b.getLsbD 0, z := b.getLsbD 1, i := b.getLsbD 2, d := b.getLsbD 3, b := b.getLsbD 4,
      v := b.getLsbD 6, n := b.getLsbD 7 })

/-! ## What each instruction does: the whole next state -/

/-- LDA, LDX, LDY in all 18 forms: the operand value goes to the register, Z and N follow it, PC moves past the
instruction, nothing else changes (R110, R111, R112). -/
def Obligations.LoadsSetRegisterAndZN : Prop :=
  ∀ (i : Instr) (src : Source) (s : State), i.operand = .source src →
    (i.mnemonic = .lda → exec i s = .next { s with
      a := readOperand src s, flags := znFrom (readOperand src s) s.flags, pc := s.pc + lengthOf i }) ∧
    (i.mnemonic = .ldx → exec i s = .next { s with
      x := readOperand src s, flags := znFrom (readOperand src s) s.flags, pc := s.pc + lengthOf i }) ∧
    (i.mnemonic = .ldy → exec i s = .next { s with
      y := readOperand src s, flags := znFrom (readOperand src s) s.flags, pc := s.pc + lengthOf i })

/-- STA, STX, STY in all 13 forms: the register goes to the byte at the effective address, every other byte, every
register and every flag keeps its value, PC moves past the instruction (R113, R114, R115). -/
def Obligations.StoresWriteOneByte : Prop :=
  ∀ (i : Instr) (f : AddrForm) (s : State), i.operand = .source (.memory f) →
    i.mnemonic ∈ [.sta, .stx, .sty] →
    ∃ t : State, exec i s = .next t ∧ t = { s with mem := t.mem, pc := s.pc + lengthOf i } ∧
      (i.mnemonic = .sta → t.mem.read (effectiveAddress f s) = s.a) ∧
      (i.mnemonic = .stx → t.mem.read (effectiveAddress f s) = s.x) ∧
      (i.mnemonic = .sty → t.mem.read (effectiveAddress f s) = s.y) ∧
      (∀ k : Addr, k ≠ effectiveAddress f s → t.mem.read k = s.mem.read k)

/-- TAX, TAY, TXA, TYA, TSX copy and set Z and N from the value copied; TXS copies and changes no flag (R120 to
R125). -/
def Obligations.TransfersCopyTheirSource : Prop :=
  ∀ s : State,
    exec .tax s = .next { s with x := s.a, flags := znFrom s.a s.flags, pc := s.pc + 1 } ∧
    exec .tay s = .next { s with y := s.a, flags := znFrom s.a s.flags, pc := s.pc + 1 } ∧
    exec .txa s = .next { s with a := s.x, flags := znFrom s.x s.flags, pc := s.pc + 1 } ∧
    exec .tya s = .next { s with a := s.y, flags := znFrom s.y s.flags, pc := s.pc + 1 } ∧
    exec .tsx s = .next { s with x := s.sp, flags := znFrom s.sp s.flags, pc := s.pc + 1 } ∧
    exec .txs s = .next { s with sp := s.x, pc := s.pc + 1 }

/-- The stack primitives (R130, R131): a push writes at 0x0100 + SP and then decrements SP modulo 256; a pull increments
SP modulo 256 and reads there; no flag and no other byte changes. -/
def Obligations.StackPrimitivesWrapInTheStackPage : Prop :=
  ∀ (s : State) (v : Byte),
    (∀ k : Addr, (s.push v).mem.read k = if k.toNat = 256 + s.sp.toNat then v else s.mem.read k) ∧
    (s.push v).sp.toNat = (s.sp.toNat + 255) % 256 ∧
    s.push v = { s with mem := (s.push v).mem, sp := (s.push v).sp } ∧
    s.pulledByte = s.mem.read (BitVec.ofNat 16 (256 + (s.sp.toNat + 1) % 256)) ∧
    s.pulled.sp.toNat = (s.sp.toNat + 1) % 256 ∧
    s.pulled = { s with sp := s.pulled.sp }

/-- PHA pushes A and PHP the packed flags, for both values of P_BIT5; SP goes down by one, no flag and no other byte
changes (R132, R133). That bit 4 is the stored B is the spec's decision D19 (log 14). -/
def Obligations.PushInstructionsWriteTheStack : Prop :=
  ∀ s : State,
    (∃ t : State, exec .pha s = .next t ∧ t = { s with mem := t.mem, sp := s.sp - 1, pc := s.pc + 1 } ∧
      t.mem.read (stackAddr s.sp) = s.a ∧
      (∀ k : Addr, k ≠ stackAddr s.sp → t.mem.read k = s.mem.read k)) ∧
    (∃ t : State, exec .php s = .next t ∧ t = { s with mem := t.mem, sp := s.sp - 1, pc := s.pc + 1 } ∧
      t.mem.read (stackAddr s.sp) = packP s.params.pBit5 s.flags ∧
      (∀ k : Addr, k ≠ stackAddr s.sp → t.mem.read k = s.mem.read k))

/-- PLA takes the byte at the incremented SP into A and sets Z and N from it; PLP takes all seven flags from it and
ignores its bit 5 (R134, R135). -/
def Obligations.PullInstructionsReadTheStack : Prop :=
  ∀ (s : State) (v : Byte), v = s.mem.read (stackAddr (s.sp + 1)) →
    exec .pla s = .next { s with a := v, sp := s.sp + 1, flags := znFrom v s.flags, pc := s.pc + 1 } ∧
    exec .plp s = .next { s with sp := s.sp + 1, flags := unpackP v, pc := s.pc + 1 } ∧
    unpackP v = unpackP (v ^^^ 0x20)

/-- INC and DEC in all eight forms: the byte at the effective address changes by one modulo 256, Z and N follow the
result, every other byte, flag and register keeps its value (R140, R141). -/
def Obligations.IncDecChangeOneByte : Prop :=
  ∀ (i : Instr) (f : AddrForm) (s : State) (v : Byte), i.operand = .source (.memory f) →
    (i.mnemonic = .inc ∧ v = BitVec.ofNat 8 ((s.mem.read (effectiveAddress f s)).toNat + 1) ∨
     i.mnemonic = .dec ∧ v = BitVec.ofNat 8 ((s.mem.read (effectiveAddress f s)).toNat + 255)) →
    ∃ t : State, exec i s = .next t ∧
      t = { s with mem := t.mem, flags := znFrom v s.flags, pc := s.pc + lengthOf i } ∧
      t.mem.read (effectiveAddress f s) = v ∧
      (∀ k : Addr, k ≠ effectiveAddress f s → t.mem.read k = s.mem.read k)

/-- INX, INY, DEX, DEY: the register changes by one modulo 256, Z and N follow it (R142 to R145; that these are the
register forms of INC and DEC is the spec's decision D7, log 8). -/
def Obligations.IncDecChangeOneRegister : Prop :=
  ∀ s : State,
    exec .inx s = .next { s with x := s.x + 1, flags := znFrom (s.x + 1) s.flags, pc := s.pc + 1 } ∧
    exec .iny s = .next { s with y := s.y + 1, flags := znFrom (s.y + 1) s.flags, pc := s.pc + 1 } ∧
    exec .dex s = .next { s with x := s.x - 1, flags := znFrom (s.x - 1) s.flags, pc := s.pc + 1 } ∧
    exec .dey s = .next { s with y := s.y - 1, flags := znFrom (s.y - 1) s.flags, pc := s.pc + 1 }

/-- AND, ORA, EOR in all 24 forms: A becomes the bitwise combination with the operand value, Z and N follow it, memory
and everything else is unchanged (R150, R151, R152). -/
def Obligations.LogicalOpsCombineA : Prop :=
  ∀ (i : Instr) (src : Source) (s : State) (v : Byte), i.operand = .source src →
    (i.mnemonic = .and ∧ v = s.a &&& readOperand src s ∨ i.mnemonic = .ora ∧ v = s.a ||| readOperand src s ∨
     i.mnemonic = .eor ∧ v = s.a ^^^ readOperand src s) →
    exec i s = .next { s with a := v, flags := znFrom v s.flags, pc := s.pc + lengthOf i }

/-- BIT in both forms: Z from A & operand, V and N from bits 6 and 7 of the operand itself, A and memory unchanged
(R153). -/
def Obligations.BitTestsTheOperand : Prop :=
  ∀ (i : Instr) (f : AddrForm) (s : State) (v : Byte), i.operand = .source (.memory f) → i.mnemonic = .bit →
    v = s.mem.read (effectiveAddress f s) →
    exec i s = .next { s with
      flags := { s.flags with
        z := decide (s.a &&& v = 0), v := decide (64 ≤ v.toNat % 128), n := decide (128 ≤ v.toNat) },
      pc := s.pc + lengthOf i }

/-- JSR under both values of JSR_PUSHES_RETURN: with false it changes PC and nothing else; with true it also pushes
`pc0 + 2`, high byte then low byte, and lowers SP by two (R160; the parameter is the spec's open point D3, log 1, and
the pushed value its reading of N19, log 15). -/
def Obligations.JsrJumpsUnderBothParameterValues : Prop :=
  ∀ (w : Addr) (s : State),
    (s.params.jsrPushesReturn = false → exec (.jsrAbs w) s = .next { s with pc := w }) ∧
    (s.params.jsrPushesReturn = true →
      ∃ t : State, exec (.jsrAbs w) s = .next t ∧ t = { s with mem := t.mem, sp := s.sp - 2, pc := w } ∧
        t.mem.read (stackAddr s.sp) = BitVec.ofNat 8 ((s.pc.toNat + 2) % 65536 / 256) ∧
        t.mem.read (stackAddr (s.sp - 1)) = BitVec.ofNat 8 ((s.pc.toNat + 2) % 256) ∧
        (∀ k : Addr, k ≠ stackAddr s.sp → k ≠ stackAddr (s.sp - 1) → t.mem.read k = s.mem.read k))

/-- BRK sets B, puts the constant 0xFFFE in PC and halts; the record, the stack and everything else stay (R161, R185;
that it does nothing more is the spec's decision D12, log 12). -/
def Obligations.BrkHalts : Prop :=
  ∀ s : State, exec .brk s = .next { s with flags := { s.flags with b := true }, pc := 0xFFFE, runState := .halted }

/-- The seven flag instructions set or clear exactly one named flag and move PC by one (R170 to R176). -/
def Obligations.FlagInstructionsSetOneFlag : Prop :=
  ∀ s : State,
    exec .clc s = .next { s with flags := { s.flags with c := false }, pc := s.pc + 1 } ∧
    exec .cld s = .next { s with flags := { s.flags with d := false }, pc := s.pc + 1 } ∧
    exec .cli s = .next { s with flags := { s.flags with i := false }, pc := s.pc + 1 } ∧
    exec .clv s = .next { s with flags := { s.flags with v := false }, pc := s.pc + 1 } ∧
    exec .sec s = .next { s with flags := { s.flags with c := true }, pc := s.pc + 1 } ∧
    exec .sed s = .next { s with flags := { s.flags with d := true }, pc := s.pc + 1 } ∧
    exec .sei s = .next { s with flags := { s.flags with i := true }, pc := s.pc + 1 }

/-! ## Rules of all instructions: completion, PC, frames -/

/-- Every instruction completes in every state: no meaning faults or refuses (R77, R184). -/
def Obligations.EveryInstructionCompletes : Prop :=
  ∀ (i : Instr) (s : State), ∃ t : State, exec i s = .next t

/-- R75: every instruction but JSR and BRK leaves PC at `pc0` plus its length, 1, 2 or 3 by its mode, modulo 65,536. -/
def Obligations.PcAdvancesByTheLength : Prop :=
  ∀ (i : Instr) (s t : State), i.mnemonic ≠ .jsr → i.mnemonic ≠ .brk → exec i s = .next t →
    ∃ n : Nat, i.mode.operandBytes = some n ∧ n ≤ 2 ∧ t.pc.toNat = (s.pc.toNat + (1 + n)) % 65536

/-- R106: INC, DEC, INX, INY, DEX and DEY leave C and V unchanged, even when the value wraps. -/
def Obligations.IncDecLeaveCarryAndOverflow : Prop :=
  ∀ (i : Instr) (s t : State), i.mnemonic ∈ [.inc, .dec, .inx, .iny, .dex, .dey] → exec i s = .next t →
    t.flags.c = s.flags.c ∧ t.flags.v = s.flags.v

/-- Which instructions may change A, X, Y and SP: no other instruction does (the tables of R10 and R11). JSR moves SP
only with JSR_PUSHES_RETURN true. -/
def Obligations.RegistersChangeOnlyAsTheirTableSays : Prop :=
  ∀ (i : Instr) (s t : State), exec i s = .next t →
    (t.a ≠ s.a → i.mnemonic ∈ [.lda, .pla, .txa, .tya, .and, .ora, .eor]) ∧
    (t.x ≠ s.x → i.mnemonic ∈ [.ldx, .tax, .tsx, .inx, .dex]) ∧
    (t.y ≠ s.y → i.mnemonic ∈ [.ldy, .tay, .iny, .dey]) ∧
    (t.sp ≠ s.sp → i.mnemonic ∈ [.pha, .php, .pla, .plp, .txs] ∨
      i.mnemonic = .jsr ∧ s.params.jsrPushesReturn = true)

/-- Which instructions may change each flag: no other instruction does (the table of R17; lemma Q-4). -/
def Obligations.FlagsChangeOnlyAsTheirTableSays : Prop :=
  ∀ (i : Instr) (s t : State), exec i s = .next t →
    (t.flags.c ≠ s.flags.c → i.mnemonic ∈ [.clc, .sec, .plp]) ∧
    (t.flags.i ≠ s.flags.i → i.mnemonic ∈ [.cli, .sei, .plp]) ∧
    (t.flags.d ≠ s.flags.d → i.mnemonic ∈ [.cld, .sed, .plp]) ∧
    (t.flags.b ≠ s.flags.b → i.mnemonic ∈ [.brk, .plp]) ∧
    (t.flags.v ≠ s.flags.v → i.mnemonic ∈ [.clv, .bit, .plp]) ∧
    (t.flags.z ≠ s.flags.z ∨ t.flags.n ≠ s.flags.n → i.mnemonic ∈
      [.lda, .ldx, .ldy, .tax, .tay, .txa, .tya, .tsx, .pla, .inc, .dec, .inx, .iny, .dex, .dey, .and, .ora, .eor,
       .bit, .plp])

/-- Every byte of memory keeps its value except at the addresses the instruction stores to, which are at most two, and
two only for a JSR that pushes (R38; lemma Q-6). An instruction that stores nothing changes no byte. -/
def Obligations.MemoryChangesOnlyAtStoredAddresses : Prop :=
  ∀ (i : Instr) (s t : State), exec i s = .next t →
    (∀ k : Addr, k ∉ storedAddresses i s → t.mem.read k = s.mem.read k) ∧
    (storedAddresses i s).length ≤ 2 ∧
    ((storedAddresses i s).length = 2 → i.mnemonic = .jsr ∧ s.params.jsrPushesReturn = true) ∧
    (i.mnemonic ∉ [.sta, .stx, .sty, .inc, .dec, .pha, .php, .jsr] → t.mem = s.mem)

/-- No instruction touches the fault record or the machine's parameters, and none but BRK the run state (R18, R19; the
parameters are constants of the machine, R5, log 1). -/
def Obligations.ControlStateChangesOnlyByBrk : Prop :=
  ∀ (i : Instr) (s t : State), exec i s = .next t →
    t.fault = s.fault ∧ t.params = s.params ∧
    (i.mnemonic ≠ .brk → t.runState = s.runState) ∧ (i.mnemonic = .brk → t.runState = .halted)

/-- PHA then PLA gives A and SP back, and Z and N follow A (property S-P6 of the source). -/
def Obligations.PhaThenPlaRestoresA : Prop :=
  ∀ s : State, ∃ t u : State, exec .pha s = .next t ∧ exec .pla t = .next u ∧
    u.a = s.a ∧ u.sp = s.sp ∧ u.flags = znFrom s.a s.flags

/-- PHP then PLP gives all seven flags and SP back, for both values of P_BIT5 (property S-P5 of the source, through
memory). -/
def Obligations.PhpThenPlpRestoresFlags : Prop :=
  ∀ s : State, ∃ t u : State, exec .php s = .next t ∧ exec .plp t = .next u ∧
    u = { s with mem := t.mem, pc := s.pc + 1 + 1 }

/-! ## The step -/

/-- When the bytes at PC decode to an instruction, a RUNNING step is the executor's effect of it; the step adds nothing
around it (R70, R74). -/
def Obligations.StepRunsTheDecodedInstruction : Prop :=
  ∀ (s : State) (i : Instr) (rest : List Byte), s.runState = .running →
    decode [s.mem.read s.pc, s.mem.read (s.pc + 1), s.mem.read (s.pc + 2)] = .ok i rest → step s = exec i s

/-- A step of a HALTED machine changes nothing (R72; the spec's decision D11, log 11). -/
def Obligations.HaltedStepChangesNothing : Prop :=
  ∀ s : State, s.runState = .halted → step s = .next s

/-- An unassigned opcode byte at PC takes the DecodeFault: the record holds the byte and its address, the machine halts,
and nothing else changes; PC stays at the byte, whatever the operand bytes (R181, R183; that PC stays is the spec's
decision D10, log 10). -/
def Obligations.UnassignedOpcodeTakesDecodeFault : Prop :=
  ∀ s : State, s.runState = .running → s.mem.read s.pc ∈ unassignedBytes →
    step s = .next { s with fault := .decodeFault (s.mem.read s.pc) s.pc, runState := .halted }

/-- The executor is total over all 35 × 13 pairs: one that is not in LegalPairs, the three tags without a rule among
them, takes the UnsupportedAddressingFault, which changes the record and the run state only (R182, R183; the spec's
decisions D22, D8, D10, log 16). -/
def Obligations.IllegalPairTakesUnsupportedAddressingFault : Prop :=
  ∀ (op : Byte) (mn : Mnemonic) (m : Mode) (s : State), legalPair mn m = false →
    executePair op mn m s = .next { s with fault := .unsupportedAddressingFault op s.pc, runState := .halted }

/-- A legal pair executes as the instruction of that mnemonic and mode whose operand bytes are those at `pc0 +16 1` and
`pc0 +16 2` (R50, R53, R57, R74, R98; the interface's totality is the spec's decision D22, log 16). -/
def Obligations.LegalPairExecutesItsInstruction : Prop :=
  ∀ (op : Byte) (mn : Mnemonic) (m : Mode) (s : State), legalPair mn m = true →
    ∃ i : Instr, i.mnemonic = mn ∧ i.mode = m ∧
      operandOf m (s.mem.read (s.pc + 1)) (s.mem.read (s.pc + 2)) = some i.operand ∧
      executePair op mn m s = exec i s

/-- `Step` is total: every state has a next state (lemma Q-1; R70, R77). -/
def Obligations.StepIsTotal : Prop :=
  ∀ s : State, ∃ t : State, step s = .next t

/-- A step that changes the fault record is a DecodeFault at PC and changes nothing but the record and the run state: no
byte sequence causes the UnsupportedAddressingFault (lemma Q-3; R77, R181, R182; the spec's decisions D10 and D22,
log 10, log 16). -/
def Obligations.FaultingStepChangesOnlyTheRecord : Prop :=
  ∀ s t : State, step s = .next t → t.fault ≠ s.fault →
    s.runState = .running ∧ decodeOpcode (s.mem.read s.pc) = none ∧
    t = { s with fault := .decodeFault (s.mem.read s.pc) s.pc, runState := .halted }

/-- A step halts a sound RUNNING machine only by BRK, which ends well with PC 0xFFFE and B = 1, or by a fault, which ends
badly with PC where it was (R72, R189, R210; that PC stays and that BRK writes no record are the spec's decisions D10 and
D12, log 10, log 12). -/
def Obligations.RunningStepHaltsOnlyByBrkOrFault : Prop :=
  ∀ s t : State, s.runState = .running → s.fault = .none → step s = .next t → t.runState = .halted →
    (fetchInstr s = .instr .brk ∧ t.endedWell ∧ t.pc = 0xFFFE ∧ t.flags.b = true) ∨
    (t.endedBadly ∧ t.pc = s.pc ∧ t.fault = .decodeFault (s.mem.read s.pc) s.pc)

/-- The invariant of the machine is kept by every step from every state that has it: memory stays in its canonical form,
which is the model's own choice of representation (log 6), and the run stands in one of the three ways of R189, whose
PC = `fault.pc` rests on the spec's decision D10 (log 10) and whose BRK row on D12 (log 12). -/
def Obligations.StepKeepsTheInvariant : Prop :=
  ∀ s t : State, s.inv = true → step s = .next t → t.inv = true

/-- Reset has the invariant, for every value of the parameters: memory in its canonical form (the model's own choice of
representation, log 6), RUNNING with no fault on record (R22, R189; the empty record after reset is the spec's decision
D13, log 13). -/
def Obligations.ResetHasTheInvariant : Prop :=
  ∀ p : Params, (State.resetWith p).inv = true

/-- Reset leaves from every state: A, X, Y and all flags zero, SP 0xFF, PC 0xFFFC, RUNNING, every byte 0x00 (R22, R200),
and no fault on record (the spec's decision D13, log 13). The parameters are the machine's own (log 1). -/
def Obligations.ResetLeavesTheResetValues : Prop :=
  ∀ s : State,
    (hostReset s).a = 0 ∧ (hostReset s).x = 0 ∧ (hostReset s).y = 0 ∧ (hostReset s).sp = 0xFF ∧
    (hostReset s).pc = 0xFFFC ∧
    (hostReset s).flags = { c := false, z := false, i := false, d := false, b := false, v := false, n := false } ∧
    (hostReset s).runState = .running ∧ (hostReset s).fault = .none ∧
    (∀ k : Addr, (hostReset s).mem.read k = 0) ∧ (hostReset s).params = s.params ∧
    State.reset = hostReset State.reset

/-- With nothing loaded, the first step after reset runs BRK at 0xFFFC, whatever the parameters (lemma Q-8; R203). That
byte 0x00 is BRK is the spec's decision D5 (log 8), that BRK changes nothing else D12 (log 12), and that no fault is on
record D13 (log 13). -/
def Obligations.EmptyMachineRunsBrk : Prop :=
  ∀ p : Params, step (State.resetWith p) = .next { State.resetWith p with
    flags := { Flags.clear with b := true }, pc := 0xFFFE, runState := .halted }

/-- No flag influences anything but the byte PHP pushes, not even another flag. From two states that differ in their
flags only, a step of anything but PHP leads to states that differ in their flags only, a step of PHP to states that
differ besides in the one stack byte at most, and in either case each flag is left with the same value in both or keeps
its own old value in each (R17, R58, R108; that no interrupt reads I is R186 by the spec's decision D20, log 18). -/
def Obligations.FlagsInfluenceOnlyPhp : Prop :=
  ∀ (s t u : State) (f : Flags), step s = .next t → step { s with flags := f } = .next u →
    (fetchInstr s ≠ .instr .php → u = { t with flags := u.flags }) ∧
    (fetchInstr s = .instr .php → u = { t with flags := u.flags, mem := u.mem } ∧
      ∀ k : Addr, k ≠ stackAddr s.sp → u.mem.read k = t.mem.read k) ∧
    sameOrKept s.flags.c t.flags.c f.c u.flags.c ∧ sameOrKept s.flags.z t.flags.z f.z u.flags.z ∧
    sameOrKept s.flags.i t.flags.i f.i u.flags.i ∧ sameOrKept s.flags.d t.flags.d f.d u.flags.d ∧
    sameOrKept s.flags.b t.flags.b f.b u.flags.b ∧ sameOrKept s.flags.v t.flags.v f.v u.flags.v ∧
    sameOrKept s.flags.n t.flags.n f.n u.flags.n

/-- The open parameters influence nothing but JSR and PHP (R5: D3 and D4 say where each shows). -/
def Obligations.ParametersInfluenceOnlyJsrAndPhp : Prop :=
  ∀ (s t u : State) (p : Params), (∀ w : Addr, fetchInstr s ≠ .instr (.jsrAbs w)) → fetchInstr s ≠ .instr .php →
    step s = .next t → step { s with params := p } = .next u → u = { t with params := p }

/-- A store into the instruction stream is seen by the next fetch (R44, vector L-13), for every instruction that stores
and every byte it stores. After it the byte is in memory; where PC then points at it, the next step takes the DecodeFault
on it if it is unassigned, and otherwise executes the instruction it decodes to, whose operand bytes are those the same
memory holds after it. PC stays in the fault by the spec's decision D10 (log 10); bit 4 of a byte PHP stored and the
bytes JSR stores rest on D19 and D3 (log 14, log 1, log 15). -/
def Obligations.StoreIsSeenByTheNextFetch : Prop :=
  ∀ (i : Instr) (s t : State) (k : Addr), s.runState = .running → exec i s = .next t → k ∈ storedAddresses i s →
    t.mem.read k = storedByte i s k ∧
    (k = t.pc → decodeOpcode (storedByte i s k) = none →
      step t = .next { t with fault := .decodeFault (storedByte i s k) t.pc, runState := .halted }) ∧
    (k = t.pc → ∀ (mn : Mnemonic) (m : Mode), decodeOpcode (storedByte i s k) = some (mn, m) →
      ∃ j : Instr, j.mnemonic = mn ∧ j.mode = m ∧
        operandOf m (t.mem.read (t.pc + 1)) (t.mem.read (t.pc + 2)) = some j.operand ∧ step t = exec j t)

/-- A run under fuel that ends, ends HALTED; more fuel changes nothing, and stepping on changes nothing (R71, R72; that a
HALTED step changes nothing is the spec's decision D11, log 11, and the fuel is the model's bound, D25, log 20). -/
def Obligations.RunEndsHaltedAndStaysSo : Prop :=
  ∀ (fuel more : Nat) (s t : State), runToHalt fuel s = some t →
    t.runState = .halted ∧ runToHalt (fuel + more) s = some t ∧ step t = .next t

/-- An instruction placed at PC is the one the next step runs, from every state (the model's convention for loading an
instruction, log 4). -/
def Obligations.PlacedInstructionRunsNext : Prop :=
  ∀ (s : State) (nbits w : Nat) (i : Instr), decodeTableWord nbits w = some i →
    step (s.withFetchWord nbits w) = exec i (s.withFetchWord nbits w)
end

