-- ==== Sys2Proof/Laws/Decode.lean ====
section
/-! SUPPORT. The decoder's tables and helpers: rows do not overlap, an instruction is its mnemonic and operand, bytes
and words convert back and forth. -/

namespace Sys2Proof

/-- The opcode bytes of the map rise strictly, so no two rows overlap. -/
theorem opcodeTable_no_overlap : (opcodeTable.map (fun r => r.opcode.toNat)).Pairwise (· < ·) := by decide +kernel

/-- The opcode map has 88 rows (rule R55). -/
theorem opcodeTable_length : opcodeTable.length = 88 := by decide

/-- An instruction is assembled from its own mnemonic and operand. -/
theorem assemble_self (i : Instr) : assemble i.mnemonic i.operand = some i := by cases i <;> rfl

/-- What assembling gives has that mnemonic and that operand. -/
theorem assemble_eq_some {mn : Mnemonic} {o : Operand} {i : Instr} (h : assemble mn o = some i) :
    i.mnemonic = mn ∧ i.operand = o := by
  rcases o with _ | _ | f
  · cases mn <;> cases h <;> exact ⟨rfl, rfl⟩
  · cases mn <;> cases h <;> exact ⟨rfl, rfl⟩
  · cases mn <;> cases f <;> cases h <;> exact ⟨rfl, rfl⟩

/-- Assembling succeeds exactly for the legal pairs (rule R57). -/
theorem assemble_isSome (mn : Mnemonic) (o : Operand) : (assemble mn o).isSome = legalPair mn o.mode := by
  rcases o with _ | _ | f
  · cases mn <;> rfl
  · cases mn <;> rfl
  · cases mn <;> cases f <;> rfl

/-- The opcode byte of an instruction decodes to its mnemonic and mode. -/
theorem decodeOpcode_opcode (i : Instr) : decodeOpcode i.opcode = some (i.mnemonic, i.mode) := by cases i <;> rfl

/-- The operand a mode takes from its bytes has that mode. -/
theorem operandOf_mode {m : Mode} {b1 b2 : Byte} {o : Operand} (h : operandOf m b1 b2 = some o) : o.mode = m := by
  cases m <;> cases h <;> rfl

/-! ## Bytes and words -/

theorem wordOf_high_low (w : Addr) : wordOf (highByte w) (lowByte w) = w := by
  apply BitVec.eq_of_getLsbD_eq
  intro i hi
  simp only [wordOf, highByte, lowByte, BitVec.getLsbD_append, BitVec.getLsbD_extractLsb']
  by_cases h : i < 8
  · simp [h]
  · have h8 : i - 8 < 8 := by omega
    have hs : 8 + (i - 8) = i := by omega
    simp [h, h8, hs]

theorem lowByte_wordOf (hi lo : Byte) : lowByte (wordOf hi lo) = lo := by
  apply BitVec.eq_of_getLsbD_eq
  intro i h
  simp only [wordOf, lowByte, BitVec.getLsbD_append, BitVec.getLsbD_extractLsb']
  simp [h]

theorem highByte_wordOf (hi lo : Byte) : highByte (wordOf hi lo) = hi := by
  apply BitVec.eq_of_getLsbD_eq
  intro i h
  simp only [wordOf, highByte, BitVec.getLsbD_append, BitVec.getLsbD_extractLsb']
  simp [h]

/-- `{hi, lo} = hi * 256 + lo` (00_scope.md section 8). -/
theorem wordOf_toNat (hi lo : Byte) : (wordOf hi lo).toNat = hi.toNat * 256 + lo.toNat := by
  rw [wordOf, BitVec.toNat_append, ← Nat.shiftLeft_add_eq_or_of_lt lo.isLt, Nat.shiftLeft_eq]

theorem zext16_toNat (b : Byte) : (zext16 b).toNat = b.toNat := by
  have := b.isLt
  simp [zext16, BitVec.toNat_setWidth]
  omega

end Sys2Proof
end

