-- ==== Sys2Proof/Laws/Flags.lean ====
section
/-! SUPPORT. What each flag operation leaves in each flag (42_alu_flags.md rules R101 to R103, 10_state.md rule R15). -/

namespace Sys2Proof.Machine

/-! ## `setZN`, `bitFlags` -/

@[simp] theorem setZN_c (v : Byte) (f : Flags) : (setZN v f).c = f.c := rfl
@[simp] theorem setZN_z (v : Byte) (f : Flags) : (setZN v f).z = (v == 0) := rfl
@[simp] theorem setZN_i (v : Byte) (f : Flags) : (setZN v f).i = f.i := rfl
@[simp] theorem setZN_d (v : Byte) (f : Flags) : (setZN v f).d = f.d := rfl
@[simp] theorem setZN_b (v : Byte) (f : Flags) : (setZN v f).b = f.b := rfl
@[simp] theorem setZN_v (v : Byte) (f : Flags) : (setZN v f).v = f.v := rfl
@[simp] theorem setZN_n (v : Byte) (f : Flags) : (setZN v f).n = v.getLsbD 7 := rfl
@[simp] theorem bitFlags_c (a v : Byte) (f : Flags) : (bitFlags a v f).c = f.c := rfl
@[simp] theorem bitFlags_z (a v : Byte) (f : Flags) : (bitFlags a v f).z = (a &&& v == 0) := rfl
@[simp] theorem bitFlags_i (a v : Byte) (f : Flags) : (bitFlags a v f).i = f.i := rfl
@[simp] theorem bitFlags_d (a v : Byte) (f : Flags) : (bitFlags a v f).d = f.d := rfl
@[simp] theorem bitFlags_b (a v : Byte) (f : Flags) : (bitFlags a v f).b = f.b := rfl
@[simp] theorem bitFlags_v (a v : Byte) (f : Flags) : (bitFlags a v f).v = v.getLsbD 6 := rfl
@[simp] theorem bitFlags_n (a v : Byte) (f : Flags) : (bitFlags a v f).n = v.getLsbD 7 := rfl

/-! ## `unpackP` -/

@[simp] theorem unpackP_c (b : Byte) : (unpackP b).c = b.getLsbD 0 := rfl
@[simp] theorem unpackP_z (b : Byte) : (unpackP b).z = b.getLsbD 1 := rfl
@[simp] theorem unpackP_i (b : Byte) : (unpackP b).i = b.getLsbD 2 := rfl
@[simp] theorem unpackP_d (b : Byte) : (unpackP b).d = b.getLsbD 3 := rfl
@[simp] theorem unpackP_b (b : Byte) : (unpackP b).b = b.getLsbD 4 := rfl
@[simp] theorem unpackP_v (b : Byte) : (unpackP b).v = b.getLsbD 6 := rfl
@[simp] theorem unpackP_n (b : Byte) : (unpackP b).n = b.getLsbD 7 := rfl

/-! ## `flagUpdate` -/

@[simp] theorem flagUpdate_keep (f : Flags) : flagUpdate .keep f = f := rfl
@[simp] theorem flagUpdate_zn (v : Byte) (f : Flags) : flagUpdate (.zn v) f = setZN v f := rfl
@[simp] theorem flagUpdate_bitTest (a v : Byte) (f : Flags) : flagUpdate (.bitTest a v) f = bitFlags a v f := rfl
@[simp] theorem flagUpdate_loadAll (b : Byte) (f : Flags) : flagUpdate (.loadAll b) f = unpackP b := rfl
@[simp] theorem flagUpdate_setC (v : Bool) (f : Flags) : flagUpdate (.setOne .c v) f = { f with c := v } := rfl
@[simp] theorem flagUpdate_setI (v : Bool) (f : Flags) : flagUpdate (.setOne .i v) f = { f with i := v } := rfl
@[simp] theorem flagUpdate_setD (v : Bool) (f : Flags) : flagUpdate (.setOne .d v) f = { f with d := v } := rfl
@[simp] theorem flagUpdate_setB (v : Bool) (f : Flags) : flagUpdate (.setOne .b v) f = { f with b := v } := rfl
@[simp] theorem flagUpdate_setV (v : Bool) (f : Flags) : flagUpdate (.setOne .v v) f = { f with v := v } := rfl

@[simp] theorem State.command_keep (s : State) : s.command .keep = s := rfl

end Sys2Proof.Machine
end

