-- ==== Sys2Proof/Laws/State.lean ====
section
/-! SUPPORT. What each named operation leaves in each field of State: one lemma per field per update, so that no later
proof unfolds a record update. -/

namespace Sys2Proof.Machine

/-! ## `State.command` -/

@[simp] theorem State.command_a (s : State) (cmd : FlagCommand) : (s.command cmd).a = s.a := rfl
@[simp] theorem State.command_x (s : State) (cmd : FlagCommand) : (s.command cmd).x = s.x := rfl
@[simp] theorem State.command_y (s : State) (cmd : FlagCommand) : (s.command cmd).y = s.y := rfl
@[simp] theorem State.command_sp (s : State) (cmd : FlagCommand) : (s.command cmd).sp = s.sp := rfl
@[simp] theorem State.command_pc (s : State) (cmd : FlagCommand) : (s.command cmd).pc = s.pc := rfl
@[simp] theorem State.command_flags (s : State) (cmd : FlagCommand) :
    (s.command cmd).flags = flagUpdate cmd s.flags := rfl
@[simp] theorem State.command_runState (s : State) (cmd : FlagCommand) : (s.command cmd).runState = s.runState := rfl
@[simp] theorem State.command_fault (s : State) (cmd : FlagCommand) : (s.command cmd).fault = s.fault := rfl
@[simp] theorem State.command_mem (s : State) (cmd : FlagCommand) : (s.command cmd).mem = s.mem := rfl
@[simp] theorem State.command_params (s : State) (cmd : FlagCommand) : (s.command cmd).params = s.params := rfl

/-! ## `State.store` -/

@[simp] theorem State.store_a (s : State) (k : Addr) (v : Byte) : (s.store k v).a = s.a := rfl
@[simp] theorem State.store_x (s : State) (k : Addr) (v : Byte) : (s.store k v).x = s.x := rfl
@[simp] theorem State.store_y (s : State) (k : Addr) (v : Byte) : (s.store k v).y = s.y := rfl
@[simp] theorem State.store_sp (s : State) (k : Addr) (v : Byte) : (s.store k v).sp = s.sp := rfl
@[simp] theorem State.store_pc (s : State) (k : Addr) (v : Byte) : (s.store k v).pc = s.pc := rfl
@[simp] theorem State.store_flags (s : State) (k : Addr) (v : Byte) : (s.store k v).flags = s.flags := rfl
@[simp] theorem State.store_runState (s : State) (k : Addr) (v : Byte) : (s.store k v).runState = s.runState := rfl
@[simp] theorem State.store_fault (s : State) (k : Addr) (v : Byte) : (s.store k v).fault = s.fault := rfl
@[simp] theorem State.store_mem (s : State) (k : Addr) (v : Byte) : (s.store k v).mem = s.mem.write k v := rfl
@[simp] theorem State.store_params (s : State) (k : Addr) (v : Byte) : (s.store k v).params = s.params := rfl

/-! ## `State.push` -/

@[simp] theorem State.push_a (s : State) (v : Byte) : (s.push v).a = s.a := rfl
@[simp] theorem State.push_x (s : State) (v : Byte) : (s.push v).x = s.x := rfl
@[simp] theorem State.push_y (s : State) (v : Byte) : (s.push v).y = s.y := rfl
@[simp] theorem State.push_sp (s : State) (v : Byte) : (s.push v).sp = s.sp - 1 := rfl
@[simp] theorem State.push_pc (s : State) (v : Byte) : (s.push v).pc = s.pc := rfl
@[simp] theorem State.push_flags (s : State) (v : Byte) : (s.push v).flags = s.flags := rfl
@[simp] theorem State.push_runState (s : State) (v : Byte) : (s.push v).runState = s.runState := rfl
@[simp] theorem State.push_fault (s : State) (v : Byte) : (s.push v).fault = s.fault := rfl
@[simp] theorem State.push_mem (s : State) (v : Byte) : (s.push v).mem = s.mem.write (stackAddr s.sp) v := rfl
@[simp] theorem State.push_params (s : State) (v : Byte) : (s.push v).params = s.params := rfl

/-! ## `State.pulled` -/

@[simp] theorem State.pulled_a (s : State) : (s.pulled).a = s.a := rfl
@[simp] theorem State.pulled_x (s : State) : (s.pulled).x = s.x := rfl
@[simp] theorem State.pulled_y (s : State) : (s.pulled).y = s.y := rfl
@[simp] theorem State.pulled_sp (s : State) : (s.pulled).sp = s.sp + 1 := rfl
@[simp] theorem State.pulled_pc (s : State) : (s.pulled).pc = s.pc := rfl
@[simp] theorem State.pulled_flags (s : State) : (s.pulled).flags = s.flags := rfl
@[simp] theorem State.pulled_runState (s : State) : (s.pulled).runState = s.runState := rfl
@[simp] theorem State.pulled_fault (s : State) : (s.pulled).fault = s.fault := rfl
@[simp] theorem State.pulled_mem (s : State) : (s.pulled).mem = s.mem := rfl
@[simp] theorem State.pulled_params (s : State) : (s.pulled).params = s.params := rfl

/-! ## `raiseFault` -/

@[simp] theorem raiseFault_a (s : State) (f : FaultRecord) : (raiseFault f s).a = s.a := rfl
@[simp] theorem raiseFault_x (s : State) (f : FaultRecord) : (raiseFault f s).x = s.x := rfl
@[simp] theorem raiseFault_y (s : State) (f : FaultRecord) : (raiseFault f s).y = s.y := rfl
@[simp] theorem raiseFault_sp (s : State) (f : FaultRecord) : (raiseFault f s).sp = s.sp := rfl
@[simp] theorem raiseFault_pc (s : State) (f : FaultRecord) : (raiseFault f s).pc = s.pc := rfl
@[simp] theorem raiseFault_flags (s : State) (f : FaultRecord) : (raiseFault f s).flags = s.flags := rfl
@[simp] theorem raiseFault_runState (s : State) (f : FaultRecord) : (raiseFault f s).runState = .halted := rfl
@[simp] theorem raiseFault_fault (s : State) (f : FaultRecord) : (raiseFault f s).fault = f := rfl
@[simp] theorem raiseFault_mem (s : State) (f : FaultRecord) : (raiseFault f s).mem = s.mem := rfl
@[simp] theorem raiseFault_params (s : State) (f : FaultRecord) : (raiseFault f s).params = s.params := rfl

/-! ## `brkHalt` -/

@[simp] theorem brkHalt_a (s : State) : (brkHalt s).a = s.a := rfl
@[simp] theorem brkHalt_x (s : State) : (brkHalt s).x = s.x := rfl
@[simp] theorem brkHalt_y (s : State) : (brkHalt s).y = s.y := rfl
@[simp] theorem brkHalt_sp (s : State) : (brkHalt s).sp = s.sp := rfl
@[simp] theorem brkHalt_pc (s : State) : (brkHalt s).pc = Config.brkPC := rfl
@[simp] theorem brkHalt_flags (s : State) : (brkHalt s).flags = { s.flags with b := true } := rfl
@[simp] theorem brkHalt_runState (s : State) : (brkHalt s).runState = .halted := rfl
@[simp] theorem brkHalt_fault (s : State) : (brkHalt s).fault = s.fault := rfl
@[simp] theorem brkHalt_mem (s : State) : (brkHalt s).mem = s.mem := rfl
@[simp] theorem brkHalt_params (s : State) : (brkHalt s).params = s.params := rfl

/-! ## `hostLoadByte` -/

@[simp] theorem hostLoadByte_a (s : State) (k : Addr) (v : Byte) : (hostLoadByte k v s).a = s.a := rfl
@[simp] theorem hostLoadByte_x (s : State) (k : Addr) (v : Byte) : (hostLoadByte k v s).x = s.x := rfl
@[simp] theorem hostLoadByte_y (s : State) (k : Addr) (v : Byte) : (hostLoadByte k v s).y = s.y := rfl
@[simp] theorem hostLoadByte_sp (s : State) (k : Addr) (v : Byte) : (hostLoadByte k v s).sp = s.sp := rfl
@[simp] theorem hostLoadByte_pc (s : State) (k : Addr) (v : Byte) : (hostLoadByte k v s).pc = s.pc := rfl
@[simp] theorem hostLoadByte_flags (s : State) (k : Addr) (v : Byte) : (hostLoadByte k v s).flags = s.flags := rfl
@[simp] theorem hostLoadByte_runState (s : State) (k : Addr) (v : Byte) :
    (hostLoadByte k v s).runState = s.runState := rfl
@[simp] theorem hostLoadByte_fault (s : State) (k : Addr) (v : Byte) : (hostLoadByte k v s).fault = s.fault := rfl
@[simp] theorem hostLoadByte_mem (s : State) (k : Addr) (v : Byte) : (hostLoadByte k v s).mem = s.mem.write k v := rfl
@[simp] theorem hostLoadByte_params (s : State) (k : Addr) (v : Byte) : (hostLoadByte k v s).params = s.params := rfl

/-! ## `hostLoadWord` -/

@[simp] theorem hostLoadWord_a (s : State) (k v : Addr) : (hostLoadWord k v s).a = s.a := rfl
@[simp] theorem hostLoadWord_x (s : State) (k v : Addr) : (hostLoadWord k v s).x = s.x := rfl
@[simp] theorem hostLoadWord_y (s : State) (k v : Addr) : (hostLoadWord k v s).y = s.y := rfl
@[simp] theorem hostLoadWord_sp (s : State) (k v : Addr) : (hostLoadWord k v s).sp = s.sp := rfl
@[simp] theorem hostLoadWord_pc (s : State) (k v : Addr) : (hostLoadWord k v s).pc = s.pc := rfl
@[simp] theorem hostLoadWord_flags (s : State) (k v : Addr) : (hostLoadWord k v s).flags = s.flags := rfl
@[simp] theorem hostLoadWord_runState (s : State) (k v : Addr) : (hostLoadWord k v s).runState = s.runState := rfl
@[simp] theorem hostLoadWord_fault (s : State) (k v : Addr) : (hostLoadWord k v s).fault = s.fault := rfl
@[simp] theorem hostLoadWord_mem (s : State) (k v : Addr) : (hostLoadWord k v s).mem = s.mem.writeWord k v := rfl
@[simp] theorem hostLoadWord_params (s : State) (k v : Addr) : (hostLoadWord k v s).params = s.params := rfl

/-! ## `State.withFetchWord` -/

@[simp] theorem State.withFetchWord_a (s : State) (nbits w : Nat) : (s.withFetchWord nbits w).a = s.a := rfl
@[simp] theorem State.withFetchWord_x (s : State) (nbits w : Nat) : (s.withFetchWord nbits w).x = s.x := rfl
@[simp] theorem State.withFetchWord_y (s : State) (nbits w : Nat) : (s.withFetchWord nbits w).y = s.y := rfl
@[simp] theorem State.withFetchWord_sp (s : State) (nbits w : Nat) : (s.withFetchWord nbits w).sp = s.sp := rfl
@[simp] theorem State.withFetchWord_pc (s : State) (nbits w : Nat) : (s.withFetchWord nbits w).pc = s.pc := rfl
@[simp] theorem State.withFetchWord_flags (s : State) (nbits w : Nat) : (s.withFetchWord nbits w).flags = s.flags := rfl
@[simp] theorem State.withFetchWord_runState (s : State) (nbits w : Nat) :
    (s.withFetchWord nbits w).runState = .running := rfl
@[simp] theorem State.withFetchWord_fault (s : State) (nbits w : Nat) : (s.withFetchWord nbits w).fault = .none := rfl
@[simp] theorem State.withFetchWord_mem (s : State) (nbits w : Nat) :
    (s.withFetchWord nbits w).mem = placeTableWord s.mem s.pc nbits w := rfl
@[simp] theorem State.withFetchWord_params (s : State) (nbits w : Nat) :
    (s.withFetchWord nbits w).params = s.params := rfl

/-! ## `State.setReg`, `State.getReg` -/

@[simp] theorem State.setReg_a (s : State) (r : Reg) (v : Byte) :
    (s.setReg r v).a = if r = .a then v else s.a := by cases r <;> rfl
@[simp] theorem State.setReg_x (s : State) (r : Reg) (v : Byte) :
    (s.setReg r v).x = if r = .x then v else s.x := by cases r <;> rfl
@[simp] theorem State.setReg_y (s : State) (r : Reg) (v : Byte) :
    (s.setReg r v).y = if r = .y then v else s.y := by cases r <;> rfl
@[simp] theorem State.setReg_sp (s : State) (r : Reg) (v : Byte) : (s.setReg r v).sp = s.sp := by cases r <;> rfl
@[simp] theorem State.setReg_pc (s : State) (r : Reg) (v : Byte) : (s.setReg r v).pc = s.pc := by cases r <;> rfl
@[simp] theorem State.setReg_flags (s : State) (r : Reg) (v : Byte) :
    (s.setReg r v).flags = s.flags := by cases r <;> rfl
@[simp] theorem State.setReg_runState (s : State) (r : Reg) (v : Byte) :
    (s.setReg r v).runState = s.runState := by cases r <;> rfl
@[simp] theorem State.setReg_fault (s : State) (r : Reg) (v : Byte) :
    (s.setReg r v).fault = s.fault := by cases r <;> rfl
@[simp] theorem State.setReg_mem (s : State) (r : Reg) (v : Byte) : (s.setReg r v).mem = s.mem := by cases r <;> rfl
@[simp] theorem State.setReg_params (s : State) (r : Reg) (v : Byte) :
    (s.setReg r v).params = s.params := by cases r <;> rfl
@[simp] theorem State.getReg_setReg (s : State) (r r' : Reg) (v : Byte) :
    (s.setReg r v).getReg r' = if r' = r then v else s.getReg r' := by cases r <;> cases r' <;> rfl

/-! ## Reset -/

@[simp] theorem State.resetWith_a (p : Params) : (State.resetWith p).a = 0 := rfl
@[simp] theorem State.resetWith_x (p : Params) : (State.resetWith p).x = 0 := rfl
@[simp] theorem State.resetWith_y (p : Params) : (State.resetWith p).y = 0 := rfl
@[simp] theorem State.resetWith_sp (p : Params) : (State.resetWith p).sp = Config.resetSP := rfl
@[simp] theorem State.resetWith_pc (p : Params) : (State.resetWith p).pc = Config.resetPC := rfl
@[simp] theorem State.resetWith_flags (p : Params) : (State.resetWith p).flags = Flags.clear := rfl
@[simp] theorem State.resetWith_runState (p : Params) : (State.resetWith p).runState = .running := rfl
@[simp] theorem State.resetWith_fault (p : Params) : (State.resetWith p).fault = .none := rfl
@[simp] theorem State.resetWith_mem (p : Params) : (State.resetWith p).mem = [] := rfl
@[simp] theorem State.resetWith_params (p : Params) : (State.resetWith p).params = p := rfl
@[simp] theorem hostReset_eq (s : State) : hostReset s = State.resetWith s.params := rfl

end Sys2Proof.Machine
end

