-- ==== Sys2Proof/Laws/Exec.lean ====
section
/-! SUPPORT. What each shared operation can do, said once: the one next state it answers. -/

namespace Sys2Proof.Machine

/-- `retire` answers one next state: the effect's, with PC moved past the instruction. -/
theorem retire_next {s t u : State} {n : Nat} :
    retire s n t = .next u ↔ u = { t with pc := s.pc + BitVec.ofNat 16 (1 + n) } := by
  constructor
  · intro h
    cases h
    rfl
  · rintro rfl
    rfl

theorem loadRegister_next (r : Reg) (src : Source) (s : State) :
    loadRegister r src s = .next { s.setReg r (readOperand src s) with
      flags := setZN (readOperand src s) s.flags, pc := s.pc + BitVec.ofNat 16 (1 + sourceBytes src) } := by
  cases r <;> rfl

theorem storeRegister_next (r : Reg) (f : AddrForm) (s : State) :
    storeRegister r f s = .next { s with
      mem := s.mem.write (effectiveAddress f s) (s.getReg r), pc := s.pc + BitVec.ofNat 16 (1 + formBytes f) } := rfl

theorem transferTo_next (r : Reg) (v : Byte) (s : State) :
    transferTo r v s = .next { s.setReg r v with flags := setZN v s.flags, pc := s.pc + 1 } := by
  cases r <;> rfl

theorem modifyMemory_next (op : AluOp) (f : AddrForm) (s : State) :
    modifyMemory op f s = .next { s with
      mem := s.mem.write (effectiveAddress f s) (alu op 0 (s.mem.read (effectiveAddress f s))),
      flags := setZN (alu op 0 (s.mem.read (effectiveAddress f s))) s.flags,
      pc := s.pc + BitVec.ofNat 16 (1 + formBytes f) } := rfl

theorem modifyRegister_next (op : AluOp) (r : Reg) (s : State) :
    modifyRegister op r s = .next { s.setReg r (alu op 0 (s.getReg r)) with
      flags := setZN (alu op 0 (s.getReg r)) s.flags, pc := s.pc + 1 } := by
  cases r <;> rfl

theorem combineA_next (op : AluOp) (src : Source) (s : State) :
    combineA op src s = .next { s with
      a := alu op s.a (readOperand src s), flags := setZN (alu op s.a (readOperand src s)) s.flags,
      pc := s.pc + BitVec.ofNat 16 (1 + sourceBytes src) } := rfl

theorem bitTestA_next (f : AddrForm) (s : State) :
    bitTestA f s = .next { s with
      flags := bitFlags s.a (readOperand (.memory f) s) s.flags,
      pc := s.pc + BitVec.ofNat 16 (1 + formBytes f) } := rfl

theorem flagOp_next (name : FlagName) (value : Bool) (s : State) :
    flagOp name value s = .next { s with flags := setFlag name value s.flags, pc := s.pc + 1 } := rfl

/-- The push of JSR writes the two stack bytes and lowers SP by two; nothing else changes. -/
theorem pushReturn_eq (s : State) :
    pushReturn s = { s with
      mem := (s.mem.write (stackAddr s.sp) (highByte (s.pc + 2))).write (stackAddr (s.sp - 1)) (lowByte (s.pc + 2)),
      sp := s.sp - 1 - 1 } := rfl

/-- A RUNNING step carries out what the fetch gives. -/
theorem step_running {s : State} (h : s.runState = .running) : step s = perform (fetchInstr s) s := by
  unfold step
  rw [h]

/-- A fetch gives the instruction its bytes decode to, or the entry of one of the two faults. -/
theorem handOver_cases (pc0 : Addr) (d : Decoded) :
    (∃ i, d = .ok i ∧ handOver pc0 d = .instr i) ∨
    (∃ op, d = .invalidOpcode op ∧ handOver pc0 d = .trap (.decodeFault op pc0)) ∨
    (∃ op mn m, d = .unsupportedPair op mn m ∧ handOver pc0 d = .trap (.unsupportedAddressingFault op pc0)) := by
  rcases d with i | op | ⟨op, mn, m⟩
  · exact .inl ⟨i, rfl, rfl⟩
  · exact .inr (.inl ⟨op, rfl, rfl⟩)
  · exact .inr (.inr ⟨op, mn, m, rfl, rfl⟩)

/-- Everything a step that answers a next state can have done: nothing (HALTED), the effect of the fetched instruction,
or the entry of the fault the fetch gave. -/
theorem step_cases {s t : State} (h : step s = .next t) :
    (s.runState = .halted ∧ t = s) ∨
    (s.runState = .running ∧ ∃ i, fetchInstr s = .instr i ∧ exec i s = .next t) ∨
    (s.runState = .running ∧ ∃ record, fetchInstr s = .trap record ∧ t = raiseFault record s) := by
  cases hr : s.runState with
  | halted =>
    unfold step at h
    rw [hr] at h
    cases h
    exact .inl ⟨rfl, rfl⟩
  | running =>
    rw [step_running hr] at h
    cases hf : fetchInstr s with
    | instr i =>
      rw [hf] at h
      exact .inr (.inl ⟨rfl, i, rfl, h⟩)
    | trap record =>
      rw [hf] at h
      cases h
      exact .inr (.inr ⟨rfl, record, rfl, rfl⟩)

/-- A run of a HALTED machine is over, whatever the fuel (R71). -/
theorem runToHalt_halted {s : State} (h : s.runState = .halted) (fuel : Nat) : runToHalt fuel s = some s := by
  cases fuel <;> simp [runToHalt, h]

end Sys2Proof.Machine
end

