-- ==== Sys2Proof/Laws/Memory.lean ====
section
/-! SUPPORT. The memory as a list of cells: read over write for every list, and the canonical form kept by every
operation. -/

namespace Sys2Proof.Machine

/-! ## Reading over writing -/

theorem Memory.lookup_remove (m : Memory) (k j : Nat) :
    (m.remove k).lookup j = if j = k then Config.erased else m.lookup j := by
  induction m with
  | nil => simp [Memory.remove, Memory.lookup]
  | cons cell rest ih =>
    by_cases hk : cell.1 = k
    · have hr : Memory.remove (cell :: rest) k = Memory.remove rest k := by simp [Memory.remove, hk]
      rw [hr, ih]
      by_cases hj : j = k
      · simp [hj]
      · have : cell.1 ≠ j := fun h => hj (h.symm.trans hk)
        simp [Memory.lookup, hj, this]
    · have hr : Memory.remove (cell :: rest) k = cell :: Memory.remove rest k := by simp [Memory.remove, hk]
      rw [hr]
      by_cases hc : cell.1 = j
      · have : j ≠ k := fun h => hk (hc.trans h)
        simp [Memory.lookup, hc, this]
      · simp [Memory.lookup, hc, ih]

theorem Memory.lookup_insert (m : Memory) (k j : Nat) (v : Byte) (h : ∀ cell ∈ m, cell.1 ≠ k) :
    (m.insert k v).lookup j = if j = k then v else m.lookup j := by
  induction m with
  | nil => by_cases hj : k = j <;> simp [Memory.insert, Memory.lookup, hj, eq_comm]
  | cons cell rest ih =>
    have hcell : cell.1 ≠ k := h cell (by simp)
    have hrest : ∀ c ∈ rest, c.1 ≠ k := fun c hc => h c (by simp [hc])
    by_cases hlt : k < cell.1
    · rw [Memory.insert, if_pos hlt]
      by_cases hj : k = j <;> simp [Memory.lookup, hj, eq_comm]
    · rw [Memory.insert, if_neg hlt]
      by_cases hc : cell.1 = j
      · have : j ≠ k := fun e => hcell (hc.trans e)
        simp [Memory.lookup, hc, this]
      · simp [Memory.lookup, hc, ih hrest]

theorem Memory.remove_absent (m : Memory) (k : Nat) : ∀ cell ∈ m.remove k, cell.1 ≠ k := by
  intro cell h
  simpa [Memory.remove] using (List.mem_filter.mp h).2

/-- R31, R32: a read gives the last byte written there, and a write changes no other byte. -/
theorem Memory.read_write (m : Memory) (a b : Addr) (v : Byte) :
    (m.write a v).read b = if b = a then v else m.read b := by
  have hab : b.toNat = a.toNat ↔ b = a := BitVec.toNat_inj
  unfold Memory.write Memory.read
  by_cases hv : v = Config.erased
  · simp [hv, Memory.lookup_remove, hab]
  · rw [if_neg hv, Memory.lookup_insert _ _ _ _ (Memory.remove_absent m a.toNat), Memory.lookup_remove]
    by_cases h : b = a <;> simp [h, hab]

theorem Memory.read_write_same (m : Memory) (a : Addr) (v : Byte) : (m.write a v).read a = v := by
  simp [Memory.read_write]

theorem Memory.read_write_other (m : Memory) (a b : Addr) (v : Byte) (h : b ≠ a) :
    (m.write a v).read b = m.read b := by
  simp [Memory.read_write, h]

/-! ## The canonical form -/

theorem Memory.wf_cons (cell : Host.Cell) (rest : Memory) :
    Memory.wf (cell :: rest) = true ↔
      cell.1 < 65536 ∧ cell.2 ≠ Config.erased ∧ (∀ later ∈ rest, cell.1 < later.1) ∧ Memory.wf rest = true := by
  simp [Memory.wf, and_assoc]

theorem Memory.mem_remove (m : Memory) (k : Nat) (cell : Host.Cell) : cell ∈ m.remove k → cell ∈ m :=
  fun h => (List.mem_filter.mp h).1

theorem Memory.wf_remove (m : Memory) (k : Nat) (h : Memory.wf m = true) : Memory.wf (m.remove k) = true := by
  induction m with
  | nil => rfl
  | cons cell rest ih =>
    obtain ⟨hb, hv, hs, hr⟩ := (Memory.wf_cons cell rest).mp h
    by_cases hk : cell.1 = k
    · have he : Memory.remove (cell :: rest) k = Memory.remove rest k := by simp [Memory.remove, hk]
      rw [he]
      exact ih hr
    · have he : Memory.remove (cell :: rest) k = cell :: Memory.remove rest k := by simp [Memory.remove, hk]
      rw [he, Memory.wf_cons]
      exact ⟨hb, hv, fun c hc => hs c (Memory.mem_remove rest k c hc), ih hr⟩

theorem Memory.mem_insert (m : Memory) (k : Nat) (v : Byte) (cell : Host.Cell) :
    cell ∈ m.insert k v → cell = (k, v) ∨ cell ∈ m := by
  induction m with
  | nil => simp [Memory.insert]
  | cons head rest ih =>
    intro h
    by_cases hlt : k < head.1
    · simpa [Memory.insert, hlt] using h
    · rw [Memory.insert, if_neg hlt, List.mem_cons] at h
      rcases h with h | h
      · exact .inr (by simp [h])
      · rcases ih h with h | h
        · exact .inl h
        · exact .inr (by simp [h])

theorem Memory.wf_insert (m : Memory) (k : Nat) (v : Byte) (hk : k < 65536) (hv : v ≠ Config.erased)
    (ha : ∀ cell ∈ m, cell.1 ≠ k) (h : Memory.wf m = true) : Memory.wf (m.insert k v) = true := by
  induction m with
  | nil => simp [Memory.insert, Memory.wf, hk, hv]
  | cons cell rest ih =>
    obtain ⟨hb, hc, hs, hr⟩ := (Memory.wf_cons cell rest).mp h
    by_cases hlt : k < cell.1
    · rw [Memory.insert, if_pos hlt, Memory.wf_cons]
      refine ⟨hk, hv, fun later hl => ?_, h⟩
      rcases List.mem_cons.mp hl with rfl | hl
      · exact hlt
      · exact hlt.trans (hs later hl)
    · have hne : cell.1 ≠ k := ha cell (by simp)
      rw [Memory.insert, if_neg hlt, Memory.wf_cons]
      refine ⟨hb, hc, fun later hl => ?_, ih (fun c hm => ha c (by simp [hm])) hr⟩
      rcases Memory.mem_insert rest k v later hl with rfl | hl
      · show cell.1 < k
        omega
      · exact hs later hl

/-- Every write keeps the canonical form. -/
theorem Memory.wf_write (m : Memory) (a : Addr) (v : Byte) (h : Memory.wf m = true) :
    Memory.wf (m.write a v) = true := by
  unfold Memory.write
  by_cases hv : v = Config.erased
  · rw [if_pos hv]
    exact Memory.wf_remove m _ h
  · rw [if_neg hv]
    exact Memory.wf_insert _ _ _ a.isLt hv (Memory.remove_absent m _) (Memory.wf_remove m _ h)

theorem Memory.wf_writeWord (m : Memory) (a v : Addr) (h : Memory.wf m = true) :
    Memory.wf (m.writeWord a v) = true :=
  Memory.wf_write _ _ _ (Memory.wf_write _ _ _ h)

/-- Reset memory is in the canonical form. -/
theorem Memory.wf_reset (p : Params) : Memory.wf (State.resetWith p).mem = true := rfl

end Sys2Proof.Machine
end

