-- ==== Sys2Proof/Laws/PerInstr.lean ====
section
/-! SUPPORT. Statements about every instruction as syntax, one lemma per constructor. -/

namespace Sys2Proof.Laws

/-- An instruction is well-formed (its pair is legal, rule R57) and its encoding has its length (rule R52). -/
def Shape.Statement (i : Instr) : Prop := i.wellFormed = true ∧ (encode i).length = i.length

theorem Shape.ldaImm (b : Byte) : Shape.Statement (.ldaImm b) := ⟨rfl, rfl⟩
theorem Shape.ldaZp (b : Byte) : Shape.Statement (.ldaZp b) := ⟨rfl, rfl⟩
theorem Shape.ldaZpX (b : Byte) : Shape.Statement (.ldaZpX b) := ⟨rfl, rfl⟩
theorem Shape.ldaAbs (w : Addr) : Shape.Statement (.ldaAbs w) := ⟨rfl, rfl⟩
theorem Shape.ldaAbsX (w : Addr) : Shape.Statement (.ldaAbsX w) := ⟨rfl, rfl⟩
theorem Shape.ldaAbsY (w : Addr) : Shape.Statement (.ldaAbsY w) := ⟨rfl, rfl⟩
theorem Shape.ldaIndX (b : Byte) : Shape.Statement (.ldaIndX b) := ⟨rfl, rfl⟩
theorem Shape.ldaIndY (b : Byte) : Shape.Statement (.ldaIndY b) := ⟨rfl, rfl⟩
theorem Shape.ldxImm (b : Byte) : Shape.Statement (.ldxImm b) := ⟨rfl, rfl⟩
theorem Shape.ldxZp (b : Byte) : Shape.Statement (.ldxZp b) := ⟨rfl, rfl⟩
theorem Shape.ldxZpY (b : Byte) : Shape.Statement (.ldxZpY b) := ⟨rfl, rfl⟩
theorem Shape.ldxAbs (w : Addr) : Shape.Statement (.ldxAbs w) := ⟨rfl, rfl⟩
theorem Shape.ldxAbsY (w : Addr) : Shape.Statement (.ldxAbsY w) := ⟨rfl, rfl⟩
theorem Shape.ldyImm (b : Byte) : Shape.Statement (.ldyImm b) := ⟨rfl, rfl⟩
theorem Shape.ldyZp (b : Byte) : Shape.Statement (.ldyZp b) := ⟨rfl, rfl⟩
theorem Shape.ldyZpX (b : Byte) : Shape.Statement (.ldyZpX b) := ⟨rfl, rfl⟩
theorem Shape.ldyAbs (w : Addr) : Shape.Statement (.ldyAbs w) := ⟨rfl, rfl⟩
theorem Shape.ldyAbsX (w : Addr) : Shape.Statement (.ldyAbsX w) := ⟨rfl, rfl⟩
theorem Shape.staZp (b : Byte) : Shape.Statement (.staZp b) := ⟨rfl, rfl⟩
theorem Shape.staZpX (b : Byte) : Shape.Statement (.staZpX b) := ⟨rfl, rfl⟩
theorem Shape.staAbs (w : Addr) : Shape.Statement (.staAbs w) := ⟨rfl, rfl⟩
theorem Shape.staAbsX (w : Addr) : Shape.Statement (.staAbsX w) := ⟨rfl, rfl⟩
theorem Shape.staAbsY (w : Addr) : Shape.Statement (.staAbsY w) := ⟨rfl, rfl⟩
theorem Shape.staIndX (b : Byte) : Shape.Statement (.staIndX b) := ⟨rfl, rfl⟩
theorem Shape.staIndY (b : Byte) : Shape.Statement (.staIndY b) := ⟨rfl, rfl⟩
theorem Shape.stxZp (b : Byte) : Shape.Statement (.stxZp b) := ⟨rfl, rfl⟩
theorem Shape.stxZpY (b : Byte) : Shape.Statement (.stxZpY b) := ⟨rfl, rfl⟩
theorem Shape.stxAbs (w : Addr) : Shape.Statement (.stxAbs w) := ⟨rfl, rfl⟩
theorem Shape.styZp (b : Byte) : Shape.Statement (.styZp b) := ⟨rfl, rfl⟩
theorem Shape.styZpX (b : Byte) : Shape.Statement (.styZpX b) := ⟨rfl, rfl⟩
theorem Shape.styAbs (w : Addr) : Shape.Statement (.styAbs w) := ⟨rfl, rfl⟩
theorem Shape.tax : Shape.Statement .tax := ⟨rfl, rfl⟩
theorem Shape.tay : Shape.Statement .tay := ⟨rfl, rfl⟩
theorem Shape.txa : Shape.Statement .txa := ⟨rfl, rfl⟩
theorem Shape.tya : Shape.Statement .tya := ⟨rfl, rfl⟩
theorem Shape.tsx : Shape.Statement .tsx := ⟨rfl, rfl⟩
theorem Shape.txs : Shape.Statement .txs := ⟨rfl, rfl⟩
theorem Shape.pha : Shape.Statement .pha := ⟨rfl, rfl⟩
theorem Shape.php : Shape.Statement .php := ⟨rfl, rfl⟩
theorem Shape.pla : Shape.Statement .pla := ⟨rfl, rfl⟩
theorem Shape.plp : Shape.Statement .plp := ⟨rfl, rfl⟩
theorem Shape.incZp (b : Byte) : Shape.Statement (.incZp b) := ⟨rfl, rfl⟩
theorem Shape.incZpX (b : Byte) : Shape.Statement (.incZpX b) := ⟨rfl, rfl⟩
theorem Shape.incAbs (w : Addr) : Shape.Statement (.incAbs w) := ⟨rfl, rfl⟩
theorem Shape.incAbsX (w : Addr) : Shape.Statement (.incAbsX w) := ⟨rfl, rfl⟩
theorem Shape.decZp (b : Byte) : Shape.Statement (.decZp b) := ⟨rfl, rfl⟩
theorem Shape.decZpX (b : Byte) : Shape.Statement (.decZpX b) := ⟨rfl, rfl⟩
theorem Shape.decAbs (w : Addr) : Shape.Statement (.decAbs w) := ⟨rfl, rfl⟩
theorem Shape.decAbsX (w : Addr) : Shape.Statement (.decAbsX w) := ⟨rfl, rfl⟩
theorem Shape.inx : Shape.Statement .inx := ⟨rfl, rfl⟩
theorem Shape.iny : Shape.Statement .iny := ⟨rfl, rfl⟩
theorem Shape.dex : Shape.Statement .dex := ⟨rfl, rfl⟩
theorem Shape.dey : Shape.Statement .dey := ⟨rfl, rfl⟩
theorem Shape.andImm (b : Byte) : Shape.Statement (.andImm b) := ⟨rfl, rfl⟩
theorem Shape.andZp (b : Byte) : Shape.Statement (.andZp b) := ⟨rfl, rfl⟩
theorem Shape.andZpX (b : Byte) : Shape.Statement (.andZpX b) := ⟨rfl, rfl⟩
theorem Shape.andAbs (w : Addr) : Shape.Statement (.andAbs w) := ⟨rfl, rfl⟩
theorem Shape.andAbsX (w : Addr) : Shape.Statement (.andAbsX w) := ⟨rfl, rfl⟩
theorem Shape.andAbsY (w : Addr) : Shape.Statement (.andAbsY w) := ⟨rfl, rfl⟩
theorem Shape.andIndX (b : Byte) : Shape.Statement (.andIndX b) := ⟨rfl, rfl⟩
theorem Shape.andIndY (b : Byte) : Shape.Statement (.andIndY b) := ⟨rfl, rfl⟩
theorem Shape.oraImm (b : Byte) : Shape.Statement (.oraImm b) := ⟨rfl, rfl⟩
theorem Shape.oraZp (b : Byte) : Shape.Statement (.oraZp b) := ⟨rfl, rfl⟩
theorem Shape.oraZpX (b : Byte) : Shape.Statement (.oraZpX b) := ⟨rfl, rfl⟩
theorem Shape.oraAbs (w : Addr) : Shape.Statement (.oraAbs w) := ⟨rfl, rfl⟩
theorem Shape.oraAbsX (w : Addr) : Shape.Statement (.oraAbsX w) := ⟨rfl, rfl⟩
theorem Shape.oraAbsY (w : Addr) : Shape.Statement (.oraAbsY w) := ⟨rfl, rfl⟩
theorem Shape.oraIndX (b : Byte) : Shape.Statement (.oraIndX b) := ⟨rfl, rfl⟩
theorem Shape.oraIndY (b : Byte) : Shape.Statement (.oraIndY b) := ⟨rfl, rfl⟩
theorem Shape.eorImm (b : Byte) : Shape.Statement (.eorImm b) := ⟨rfl, rfl⟩
theorem Shape.eorZp (b : Byte) : Shape.Statement (.eorZp b) := ⟨rfl, rfl⟩
theorem Shape.eorZpX (b : Byte) : Shape.Statement (.eorZpX b) := ⟨rfl, rfl⟩
theorem Shape.eorAbs (w : Addr) : Shape.Statement (.eorAbs w) := ⟨rfl, rfl⟩
theorem Shape.eorAbsX (w : Addr) : Shape.Statement (.eorAbsX w) := ⟨rfl, rfl⟩
theorem Shape.eorAbsY (w : Addr) : Shape.Statement (.eorAbsY w) := ⟨rfl, rfl⟩
theorem Shape.eorIndX (b : Byte) : Shape.Statement (.eorIndX b) := ⟨rfl, rfl⟩
theorem Shape.eorIndY (b : Byte) : Shape.Statement (.eorIndY b) := ⟨rfl, rfl⟩
theorem Shape.bitZp (b : Byte) : Shape.Statement (.bitZp b) := ⟨rfl, rfl⟩
theorem Shape.bitAbs (w : Addr) : Shape.Statement (.bitAbs w) := ⟨rfl, rfl⟩
theorem Shape.jsrAbs (w : Addr) : Shape.Statement (.jsrAbs w) := ⟨rfl, rfl⟩
theorem Shape.brk : Shape.Statement .brk := ⟨rfl, rfl⟩
theorem Shape.clc : Shape.Statement .clc := ⟨rfl, rfl⟩
theorem Shape.cld : Shape.Statement .cld := ⟨rfl, rfl⟩
theorem Shape.cli : Shape.Statement .cli := ⟨rfl, rfl⟩
theorem Shape.clv : Shape.Statement .clv := ⟨rfl, rfl⟩
theorem Shape.sec : Shape.Statement .sec := ⟨rfl, rfl⟩
theorem Shape.sed : Shape.Statement .sed := ⟨rfl, rfl⟩
theorem Shape.sei : Shape.Statement .sei := ⟨rfl, rfl⟩

end Sys2Proof.Laws
end

