-- ==== Sys2Proof/Tests/Slice0.lean ====
section
/-! SUPPORT. The model's own tests: vectors of 95_test_vectors.md (named in each comment), the well-formedness smoke
test, every row of the opcode table decoded from a word written out from rule R55, and a witness for the hypotheses of
each statement that has some. -/

namespace Sys2Proof.Machine.Test

/-- The reset state with given parameters and PC at 0x0200, where the vectors place their bytes. -/
def base (push bit5 : Bool) : State :=
  { State.resetWith { jsrPushesReturn := push, pBit5 := bit5 } with pc := 0x0200 }

/-- The recommended parameters. -/
def std : State := base false false

/-- Bytes loaded one after another from an address, wrapping. -/
def load (s : State) (at0 : Addr) : List Byte → State
  | [] => s
  | b :: rest => load (hostLoadByte at0 b s) (at0 + 1) rest

/-- The state after one step. -/
def after (s : State) : State :=
  match step s with
  | .next t => t
  | .fault _ => s
  | .refused _ => s

/-- All seven flags set. -/
def allSet : Flags := { c := true, z := true, i := true, d := true, b := true, v := true, n := true }

-- S-1 (source)
theorem test_lda_imm_scenario :
    let t := after (load { std with pc := 0xFFFC } 0xFFFC [0xA9, 0x84])
    (t.a, t.flags.z, t.flags.n, t.pc) = (0x84, false, true, 0xFFFE) := by decide

-- S-2 (source)
theorem test_lda_zpx_scenario :
    let t := after (load (load { std with pc := 0xFFFC, x := 0x02 } 0x0001 [0x85]) 0xFFFC [0xB5, 0xFF])
    (t.a, t.flags.z, t.flags.n) = (0x85, false, true) := by decide

-- S-3 (source)
theorem test_lda_indx_scenario :
    let t := after (load (load (load { std with pc := 0xFFFC, x := 0x04 } 0x0006 [0x00, 0x80]) 0x8000 [0x37])
      0xFFFC [0xA1, 0x02])
    (t.a, t.pc) = (0x37, 0xFFFE) := by decide

-- S-4 (source)
theorem test_lda_indy_scenario :
    let t := after (load (load (load { std with pc := 0xFFFC, y := 0x04 } 0x0002 [0x00, 0x80]) 0x8004 [0x37])
      0xFFFC [0xB1, 0x02])
    (t.a, t.pc) = (0x37, 0xFFFE) := by decide

-- S-5 (source), JSR_PUSHES_RETURN false
theorem test_jsr_scenario :
    let t := after (load { std with pc := 0xFFFC } 0xFFFC [0x20, 0x32, 0x42])
    (t.pc, t.sp, t.mem.read 0x01FF) = (0x4232, 0xFF, 0x00) := by decide

-- S-6 (source)
theorem test_bit_zp_scenario :
    let t := after (load (load { std with pc := 0xFFFC } 0x0010 [0xC0]) 0xFFFC [0x24, 0x10])
    (t.flags.z, t.flags.v, t.flags.n, t.a, t.pc) = (true, true, true, 0x00, 0xFFFE) := by decide

-- S-6b
theorem test_bit_abs_scenario :
    let t := after (load (load { std with pc := 0xFFFC } 0x3000 [0xC0]) 0xFFFC [0x2C, 0x00, 0x30])
    (t.flags.z, t.flags.v, t.flags.n, t.pc) = (true, true, true, 0xFFFF) := by decide

-- A-1
theorem test_lda_zpx_stays_in_page_zero :
    let t := after (load (load (load { std with x := 0x80 } 0x0000 [0x11]) 0x0100 [0x22]) 0x0200 [0xB5, 0x80])
    (t.a, t.pc) = (0x11, 0x0202) := by decide

-- A-2
theorem test_ldx_zpy_wraps :
    let t := after (load (load (load { std with y := 0x20 } 0x0010 [0x99]) 0x0110 [0x22]) 0x0200 [0xB6, 0xF0])
    (t.x, t.flags.n, t.flags.z) = (0x99, true, false) := by decide

-- A-3
theorem test_lda_absx_wraps :
    let t := after (load (load { std with x := 0x02 } 0x0001 [0x5A]) 0x0200 [0xBD, 0xFF, 0xFF])
    (t.a, t.pc) = (0x5A, 0x0203) := by decide

-- A-4
theorem test_lda_absy_crosses_page :
    let t := after (load (load { std with y := 0x20 } 0x1310 [0x40]) 0x0200 [0xB9, 0xF0, 0x12])
    (t.a, t.pc) = (0x40, 0x0203) := by decide

-- A-5 (decision D9)
theorem test_lda_indx_pointer_ff :
    let t := after (load (load (load (load (load { std with x := 0x01 } 0x00FF [0x34, 0x12]) 0x0000 [0x99]) 0x1234 [0x77])
      0x9934 [0x66]) 0x0200 [0xA1, 0xFE])
    t.a = 0x77 := by decide

-- A-7 (decision D9)
theorem test_lda_indy_pointer_ff :
    let t := after (load (load (load (load (load { std with y := 0x01 } 0x00FF [0xFF, 0x12]) 0x0000 [0x99]) 0x1300 [0x55])
      0x9A00 [0x66]) 0x0200 [0xB1, 0xFF])
    t.a = 0x55 := by decide

-- A-9
theorem test_sta_absx :
    let t := after (load { std with a := 0xAB, x := 0x01, flags := { Flags.clear with z := true } } 0x0200 [0x9D, 0xFF, 0x12])
    (t.mem.read 0x1300, t.flags, t.pc) = (0xAB, { Flags.clear with z := true }, 0x0203) := by decide

-- A-10
theorem test_sta_indx :
    let t := after (load (load { std with a := 0xAB, x := 0xF5 } 0x0005 [0x00, 0x60]) 0x0200 [0x81, 0x10])
    (t.mem.read 0x6000, t.pc) = (0xAB, 0x0202) := by decide

-- A-11
theorem test_stx_zpy :
    let t := after (load { std with x := 0x77, y := 0x02 } 0x0200 [0x96, 0xFF])
    (t.mem.read 0x0001, t.mem.read 0x0101) = (0x77, 0x00) := by decide

-- A-12
theorem test_sty_zpx :
    let t := after (load { std with y := 0x66, x := 0x81 } 0x0200 [0x94, 0x7F])
    t.mem.read 0x0000 = 0x66 := by decide

-- A-13
theorem test_ldy_absx :
    let t := after (load (load { std with x := 0x80, y := 0x11 } 0x2100 [0x00]) 0x0200 [0xBC, 0x80, 0x20])
    (t.y, t.flags.z, t.flags.n) = (0x00, true, false) := by decide

-- A-14
theorem test_ldx_absy :
    let t := after (load (load { std with y := 0xFF } 0x21FE [0x81]) 0x0200 [0xBE, 0xFF, 0x20])
    (t.x, t.flags.n) = (0x81, true) := by decide

-- A-15
theorem test_lda_abs_across_the_top :
    let t := after (load (load { std with pc := 0xFFFE } 0x8034 [0x9C]) 0xFFFE [0xAD, 0x34, 0x80])
    (t.a, t.pc) = (0x9C, 0x0001) := by decide

-- L-1
theorem test_lda_imm_zero :
    let t := after (load { std with a := 0x05, flags := { Flags.clear with n := true } } 0x0200 [0xA9, 0x00])
    (t.a, t.flags.z, t.flags.n, t.pc) = (0x00, true, false, 0x0202) := by decide

-- L-5
theorem test_ldx_imm :
    let t := after (load { std with x := 0x05 } 0x0200 [0xA2, 0x00])
    (t.x, t.flags.z, t.flags.n) = (0x00, true, false) := by decide

-- L-6
theorem test_ldy_imm :
    let t := after (load std 0x0200 [0xA0, 0x80])
    (t.y, t.flags.z, t.flags.n) = (0x80, false, true) := by decide

-- L-8
theorem test_ldx_abs :
    let t := after (load (load std 0x1234 [0x80]) 0x0200 [0xAE, 0x34, 0x12])
    (t.x, t.pc, t.flags.n) = (0x80, 0x0203, true) := by decide

-- L-10
theorem test_sta_abs_keeps_flags :
    let t := after (load { std with a := 0xFF, flags := { Flags.clear with z := true } } 0x0200 [0x8D, 0x00, 0x30])
    (t.mem.read 0x3000, t.flags.z, t.flags.n) = (0xFF, true, false) := by decide

-- L-12
theorem test_sty_abs :
    let t := after (load { std with y := 0x34 } 0x0200 [0x8C, 0x00, 0x30])
    (t.mem.read 0x3000, t.pc) = (0x34, 0x0203) := by decide

-- T-1
theorem test_tax :
    let t := after (load { std with x := 0x05 } 0x0200 [0xAA])
    (t.x, t.flags.z, t.flags.n, t.pc) = (0x00, true, false, 0x0201) := by decide

-- T-2
theorem test_tay :
    let t := after (load { std with a := 0x80 } 0x0200 [0xA8])
    (t.y, t.flags.z, t.flags.n) = (0x80, false, true) := by decide

-- T-3
theorem test_txa :
    let t := after (load { std with x := 0x7F, a := 0x80, flags := { Flags.clear with n := true } } 0x0200 [0x8A])
    (t.a, t.flags.z, t.flags.n) = (0x7F, false, false) := by decide

-- T-4
theorem test_tya :
    let t := after (load { std with a := 0x09 } 0x0200 [0x98])
    (t.a, t.flags.z, t.flags.n) = (0x00, true, false) := by decide

-- T-5
theorem test_tsx :
    let t := after (load std 0x0200 [0xBA])
    (t.x, t.flags.z, t.flags.n) = (0xFF, false, true) := by decide

-- T-7
theorem test_txs_keeps_flags :
    let t := after (load { std with flags := { Flags.clear with n := true } } 0x0200 [0x9A])
    (t.sp, t.flags.z, t.flags.n) = (0x00, false, true) := by decide

-- K-2
theorem test_pha_wraps :
    let t := after (load { std with a := 0x5A, sp := 0x00 } 0x0200 [0x48])
    (t.mem.read 0x0100, t.sp) = (0x5A, 0xFF) := by decide

-- K-3
theorem test_pla_wraps :
    let t := after (load (load std 0x0100 [0x80]) 0x0200 [0x68])
    (t.sp, t.a, t.flags.z, t.flags.n) = (0x00, 0x80, false, true) := by decide

-- K-5, P_BIT5 = 0
theorem test_php_bit5_clear :
    let t := after (load { std with flags := allSet } 0x0200 [0x08])
    (t.mem.read 0x01FF, t.sp, t.flags) = (0xDF, 0xFE, allSet) := by decide

-- K-5, P_BIT5 = 1
theorem test_php_bit5_set :
    let t := after (load { base false true with flags := allSet } 0x0200 [0x08])
    (t.mem.read 0x01FF, t.sp) = (0xFF, 0xFE) := by decide

-- K-8
theorem test_plp_ignores_bit5 :
    let t := after (load (load { std with flags := allSet, sp := 0xFE } 0x01FF [0x20]) 0x0200 [0x28])
    (t.sp, t.flags) = (0xFF, Flags.clear) := by decide

-- K-9
theorem test_plp :
    let t := after (load (load { std with sp := 0xFE } 0x01FF [0xC3]) 0x0200 [0x28])
    t.flags = { Flags.clear with c := true, z := true, v := true, n := true } := by decide

-- I-1 (S-P4, source)
theorem test_inc_abs_wraps :
    let t := after (load (load { std with flags := { Flags.clear with c := true } } 0x3000 [0xFF]) 0x0200 [0xEE, 0x00, 0x30])
    (t.mem.read 0x3000, t.flags.z, t.flags.n, t.flags.c, t.pc) = (0x00, true, false, true, 0x0203) := by decide

-- I-2 (S-P4, source)
theorem test_dec_abs_wraps :
    let t := after (load (load std 0x3000 [0x00]) 0x0200 [0xCE, 0x00, 0x30])
    (t.mem.read 0x3000, t.flags.z, t.flags.n, t.flags.c) = (0xFF, false, true, false) := by decide

-- I-6
theorem test_inc_zpx :
    let t := after (load (load { std with x := 0x02 } 0x0001 [0xFF]) 0x0200 [0xF6, 0xFF])
    (t.mem.read 0x0001, t.flags.z) = (0x00, true) := by decide

-- I-5
theorem test_dec_absx :
    let t := after (load (load { std with x := 0x01 } 0x3000 [0x01]) 0x0200 [0xDE, 0xFF, 0x2F])
    (t.mem.read 0x3000, t.flags.z, t.flags.n) = (0x00, true, false) := by decide

-- I-7
theorem test_inx :
    let t := after (load { std with x := 0xFF, flags := { Flags.clear with c := true } } 0x0200 [0xE8])
    (t.x, t.flags.z, t.flags.n, t.flags.c) = (0x00, true, false, true) := by decide

-- I-8
theorem test_dey :
    let t := after (load std 0x0200 [0x88])
    (t.y, t.flags.z, t.flags.n) = (0xFF, false, true) := by decide

-- I-9
theorem test_dex :
    let t := after (load { std with x := 0x01 } 0x0200 [0xCA])
    (t.x, t.flags.z) = (0x00, true) := by decide

-- I-10
theorem test_iny :
    let t := after (load { std with y := 0x7F } 0x0200 [0xC8])
    (t.y, t.flags.n) = (0x80, true) := by decide

-- G-1
theorem test_and_imm :
    let t := after (load { std with a := 0xF0 } 0x0200 [0x29, 0x0F])
    (t.a, t.flags.z, t.flags.n) = (0x00, true, false) := by decide

-- G-4
theorem test_ora_imm :
    let t := after (load { std with a := 0x01 } 0x0200 [0x09, 0x80])
    (t.a, t.flags.z, t.flags.n) = (0x81, false, true) := by decide

-- G-6
theorem test_eor_imm :
    let t := after (load { std with a := 0x7F } 0x0200 [0x49, 0xFF])
    (t.a, t.flags.z, t.flags.n) = (0x80, false, true) := by decide

-- G-8
theorem test_bit_clears_v_n :
    let t := after (load (load { std with a := 0xFF, flags := { Flags.clear with v := true, n := true } } 0x0010 [0x3F])
      0x0200 [0x24, 0x10])
    (t.flags.z, t.flags.v, t.flags.n, t.a) = (false, false, false, 0xFF) := by decide

-- F-9
theorem test_clc_leaves_the_other_six :
    let t := after (load { std with flags := allSet } 0x0200 [0x18])
    (t.flags, t.pc) = ({ allSet with c := false }, 0x0201) := by decide

-- F-3
theorem test_cld :
    let t := after (load { std with flags := allSet } 0x0200 [0xD8])
    t.flags = { allSet with d := false } := by decide

-- F-4
theorem test_cli :
    let t := after (load { std with flags := allSet } 0x0200 [0x58])
    t.flags = { allSet with i := false } := by decide

-- F-5
theorem test_clv :
    let t := after (load { std with flags := allSet } 0x0200 [0xB8])
    t.flags = { allSet with v := false } := by decide

-- F-6
theorem test_sec :
    let t := after (load std 0x0200 [0x38])
    t.flags = { Flags.clear with c := true } := by decide

-- F-7
theorem test_sed :
    let t := after (load std 0x0200 [0xF8])
    t.flags = { Flags.clear with d := true } := by decide

-- F-8
theorem test_sei :
    let t := after (load std 0x0200 [0x78])
    t.flags = { Flags.clear with i := true } := by decide

-- J-3, JSR_PUSHES_RETURN true
theorem test_jsr_return_wraps :
    let t := after (load (load { base true false with pc := 0xFFFE } 0x0000 [0x66]) 0xFFFE [0x20, 0x55])
    (t.pc, t.mem.read 0x01FF, t.mem.read 0x01FE, t.sp) = (0x6655, 0x00, 0x00, 0xFD) := by decide

-- B-1
theorem test_brk :
    let t := after (load { std with a := 0x7C, sp := 0xFD, pc := 0x0210, flags := { Flags.clear with c := true } } 0x0210 [0x00])
    (t.flags, t.pc, t.runState, t.fault, t.sp)
      = ({ Flags.clear with c := true, b := true }, 0xFFFE, .halted, .none, 0xFD) := by decide

-- B-3
theorem test_brk_reads_no_vector :
    let t := after (load (load std 0xFFFE [0x34, 0x12]) 0x0200 [0x00])
    t.pc = 0xFFFE := by decide

-- X-1
theorem test_decode_fault :
    let t := after (load { std with a := 0x01, x := 0x02, flags := { Flags.clear with c := true } } 0x0200 [0x02])
    (t.fault, t.runState, t.pc, t.a, t.x, t.flags)
      = (.decodeFault 0x02 0x0200, .halted, 0x0200, 0x01, 0x02, { Flags.clear with c := true }) := by decide

-- X-3
theorem test_no_nop :
    let t := after (load std 0x0200 [0xEA])
    (t.fault, t.pc) = (.decodeFault 0xEA 0x0200, 0x0200) := by decide

-- D-1
theorem test_pc_wraps :
    let t := after (load { std with pc := 0xFFFF } 0xFFFF [0xE8])
    (t.x, t.pc) = (0x01, 0x0000) := by decide

-- X-4: a halted machine does nothing.
theorem test_halted_step :
    let s := { load std 0x0200 [0xE8] with runState := .halted, fault := .decodeFault 0xEA 0x0200 }
    after s = s := by decide

-- M-2, M-3, M-4: the word accesses.
theorem test_words :
    let s := load (load std 0xFFFF [0x34, 0x12]) 0x00FF [0x34]
    (s.mem.readWord 0xFFFF, (hostLoadByte 0x0100 0x12 s).mem.readWord 0x00FF,
      (hostLoadWord 0xFFFF 0xBEEF s).mem.read 0xFFFF, (hostLoadWord 0xFFFF 0xBEEF s).mem.read 0x0000)
      = (0x1234, 0x1234, 0xEF, 0xBE) := by decide

-- P-3, P-5 and P-11: the status byte.
theorem test_status_byte :
    (packP false { Flags.clear with c := true, i := true, d := true },
      packP true { Flags.clear with c := true, z := true, v := true, n := true }, unpackP 0xE3)
      = (0x0D, 0xE3, { Flags.clear with c := true, z := true, v := true, n := true }) := by decide

-- Writing the byte an unlisted address reads as takes the cell out: the canonical form.
theorem test_write_of_zero_removes :
    (Memory.write (Memory.write (Memory.write [] 0x20 1) 0x10 2) 0x20 0) = [(0x10, 2)] := by decide

-- Z-1, X-7: reset from a halted, faulted machine.
theorem test_reset :
    hostReset { load std 0x0200 [0xEA] with a := 0x12, runState := .halted, fault := .decodeFault 0xEA 0x0200 }
      = { std with pc := 0xFFFC } := by decide

/-! ## The well-formedness check refuses ill-formed pairs (X-8) -/

theorem test_wf_sta_immediate : legalPair .sta .immediate = false := by decide
theorem test_wf_lda_accumulator : legalPair .lda .accumulator = false := by decide
theorem test_wf_jsr_indirect : legalPair .jsr .indirect = false := by decide
theorem test_wf_ldx_zpx : legalPair .ldx .zeroPageX = false := by decide
theorem test_wf_tax_relative : legalPair .tax .relative = false := by decide
theorem test_wf_accepts : (Instr.ldxZpY 0xF0).wellFormed = true := by decide

-- X-8: the executor handed an illegal pair.
theorem test_illegal_pair :
    fetchPair 0x89 .sta .immediate std = .trap (.unsupportedAddressingFault 0x89 0x0200) := by decide

/-! ## Every row decodes from a word written out from rule R55 -/

/-- Whether three bytes, the opcode first, decode to an instruction. -/
def decodesTo (p : (Byte × Byte × Byte) × Instr) : Bool := decide (decodeBytes p.1.1 p.1.2.1 p.1.2.2 = .ok p.2)

theorem test_decode_lda :
    [((0xA9, 0x34, 0x00), .ldaImm 0x34), ((0xA5, 0x34, 0x00), .ldaZp 0x34), ((0xB5, 0x34, 0x00), .ldaZpX 0x34),
     ((0xAD, 0x34, 0x12), .ldaAbs 0x1234), ((0xBD, 0x34, 0x12), .ldaAbsX 0x1234),
     ((0xB9, 0x34, 0x12), .ldaAbsY 0x1234), ((0xA1, 0x34, 0x00), .ldaIndX 0x34),
     ((0xB1, 0x34, 0x00), .ldaIndY 0x34)].all decodesTo = true := by decide

theorem test_decode_ldx :
    [((0xA2, 0x34, 0x00), .ldxImm 0x34), ((0xA6, 0x34, 0x00), .ldxZp 0x34), ((0xB6, 0x34, 0x00), .ldxZpY 0x34),
     ((0xAE, 0x34, 0x12), .ldxAbs 0x1234), ((0xBE, 0x34, 0x12), .ldxAbsY 0x1234)].all
      decodesTo = true := by decide

theorem test_decode_ldy :
    [((0xA0, 0x34, 0x00), .ldyImm 0x34), ((0xA4, 0x34, 0x00), .ldyZp 0x34), ((0xB4, 0x34, 0x00), .ldyZpX 0x34),
     ((0xAC, 0x34, 0x12), .ldyAbs 0x1234), ((0xBC, 0x34, 0x12), .ldyAbsX 0x1234)].all
      decodesTo = true := by decide

theorem test_decode_sta :
    [((0x85, 0x34, 0x00), .staZp 0x34), ((0x95, 0x34, 0x00), .staZpX 0x34),
     ((0x8D, 0x34, 0x12), .staAbs 0x1234), ((0x9D, 0x34, 0x12), .staAbsX 0x1234),
     ((0x99, 0x34, 0x12), .staAbsY 0x1234), ((0x81, 0x34, 0x00), .staIndX 0x34),
     ((0x91, 0x34, 0x00), .staIndY 0x34)].all decodesTo = true := by decide

theorem test_decode_stx :
    [((0x86, 0x34, 0x00), .stxZp 0x34), ((0x96, 0x34, 0x00), .stxZpY 0x34), ((0x8E, 0x34, 0x12), .stxAbs 0x1234)].all
      decodesTo = true := by decide

theorem test_decode_sty :
    [((0x84, 0x34, 0x00), .styZp 0x34), ((0x94, 0x34, 0x00), .styZpX 0x34), ((0x8C, 0x34, 0x12), .styAbs 0x1234)].all
      decodesTo = true := by decide

theorem test_decode_transfer :
    [((0xAA, 0x00, 0x00), .tax), ((0xA8, 0x00, 0x00), .tay), ((0x8A, 0x00, 0x00), .txa),
     ((0x98, 0x00, 0x00), .tya), ((0xBA, 0x00, 0x00), .tsx), ((0x9A, 0x00, 0x00), .txs)].all
      decodesTo = true := by decide

theorem test_decode_stack :
    [((0x48, 0x00, 0x00), .pha), ((0x08, 0x00, 0x00), .php), ((0x68, 0x00, 0x00), .pla),
     ((0x28, 0x00, 0x00), .plp)].all decodesTo = true := by decide

theorem test_decode_incdec :
    [((0xE6, 0x34, 0x00), .incZp 0x34), ((0xF6, 0x34, 0x00), .incZpX 0x34),
     ((0xEE, 0x34, 0x12), .incAbs 0x1234), ((0xFE, 0x34, 0x12), .incAbsX 0x1234),
     ((0xC6, 0x34, 0x00), .decZp 0x34), ((0xD6, 0x34, 0x00), .decZpX 0x34),
     ((0xCE, 0x34, 0x12), .decAbs 0x1234), ((0xDE, 0x34, 0x12), .decAbsX 0x1234), ((0xE8, 0x00, 0x00), .inx),
     ((0xC8, 0x00, 0x00), .iny), ((0xCA, 0x00, 0x00), .dex), ((0x88, 0x00, 0x00), .dey)].all
      decodesTo = true := by decide

theorem test_decode_and :
    [((0x29, 0x34, 0x00), .andImm 0x34), ((0x25, 0x34, 0x00), .andZp 0x34), ((0x35, 0x34, 0x00), .andZpX 0x34),
     ((0x2D, 0x34, 0x12), .andAbs 0x1234), ((0x3D, 0x34, 0x12), .andAbsX 0x1234),
     ((0x39, 0x34, 0x12), .andAbsY 0x1234), ((0x21, 0x34, 0x00), .andIndX 0x34),
     ((0x31, 0x34, 0x00), .andIndY 0x34)].all decodesTo = true := by decide

theorem test_decode_ora :
    [((0x09, 0x34, 0x00), .oraImm 0x34), ((0x05, 0x34, 0x00), .oraZp 0x34), ((0x15, 0x34, 0x00), .oraZpX 0x34),
     ((0x0D, 0x34, 0x12), .oraAbs 0x1234), ((0x1D, 0x34, 0x12), .oraAbsX 0x1234),
     ((0x19, 0x34, 0x12), .oraAbsY 0x1234), ((0x01, 0x34, 0x00), .oraIndX 0x34),
     ((0x11, 0x34, 0x00), .oraIndY 0x34)].all decodesTo = true := by decide

theorem test_decode_eor :
    [((0x49, 0x34, 0x00), .eorImm 0x34), ((0x45, 0x34, 0x00), .eorZp 0x34), ((0x55, 0x34, 0x00), .eorZpX 0x34),
     ((0x4D, 0x34, 0x12), .eorAbs 0x1234), ((0x5D, 0x34, 0x12), .eorAbsX 0x1234),
     ((0x59, 0x34, 0x12), .eorAbsY 0x1234), ((0x41, 0x34, 0x00), .eorIndX 0x34),
     ((0x51, 0x34, 0x00), .eorIndY 0x34)].all decodesTo = true := by decide

theorem test_decode_bit :
    [((0x24, 0x34, 0x00), .bitZp 0x34), ((0x2C, 0x34, 0x12), .bitAbs 0x1234)].all
      decodesTo = true := by decide

theorem test_decode_control :
    [((0x20, 0x34, 0x12), .jsrAbs 0x1234), ((0x00, 0x00, 0x00), .brk)].all decodesTo = true := by decide

theorem test_decode_flagops :
    [((0x18, 0x00, 0x00), .clc), ((0xD8, 0x00, 0x00), .cld), ((0x58, 0x00, 0x00), .cli),
     ((0xB8, 0x00, 0x00), .clv), ((0x38, 0x00, 0x00), .sec), ((0xF8, 0x00, 0x00), .sed),
     ((0x78, 0x00, 0x00), .sei)].all decodesTo = true := by decide

/-! ## Witnesses: for each statement with hypotheses, a state and operands that meet them -/

/-- A RUNNING machine at 0x0200 with three bytes there. -/
def at0200 (b0 b1 b2 : Byte) : State := load std 0x0200 [b0, b1, b2]

theorem witness_EncodeOfDecode : decode [0xA9, 0x84, 0xEA] = .ok (.ldaImm 0x84) [0xEA] := by decide

theorem witness_LegalPairsHaveOneOpcode :
    legalPair .lda .immediate = true ∧ decodeOpcode 0xA9 = some (.lda, .immediate) := by decide

theorem witness_OpcodeByteAloneDecides :
    (at0200 0xAD 0x34 0x12).mem.read 0x0200 = (at0200 0xAD 0xFF 0xFF).mem.read 0x0200 ∧
    fetchInstr (at0200 0xAD 0x34 0x12) = .instr (.ldaAbs 0x1234) := by decide

theorem witness_FetchReadsTheEncodingAtPc :
    fetchInstr (at0200 0x20 0x32 0x42) = .instr (.jsrAbs 0x4232) ∧ 2 < (Instr.jsrAbs 0x4232).length ∧
    fetchInstr (load { std with pc := 0xFFFF } 0xFFFF [0xA9, 0x42]) = .instr (.ldaImm 0x42) := by decide

theorem witness_CanonicalMemories : Memory.wf [(3, 5), (65535, 1)] = true ∧
    ∀ a : Addr, Memory.read [(3, 5), (65535, 1)] a = Memory.read [(3, 5), (65535, 1)] a :=
  ⟨by decide, fun _ => rfl⟩

-- The three cases of SetZN at the boundaries 0x00, 0x01, 0x7F, 0x80, 0xFF.
theorem witness_SetZNHasThreeCases :
    ((setZN 0 Flags.clear).z, (setZN 0 Flags.clear).n, (setZN 0x01 Flags.clear).z, (setZN 0x01 Flags.clear).n,
      (setZN 0x7F Flags.clear).n, (setZN 0x80 Flags.clear).n, (setZN 0xFF Flags.clear).n)
      = (true, false, false, false, false, true, true) := by decide

-- Its last clause: a step that changes N by an instruction other than BIT and PLP.
theorem witness_SetZNOfAnInstruction :
    ∃ t : State, exec (.ldaImm 0x84) std = .next t ∧ (Instr.ldaImm 0x84).mnemonic ≠ .bit ∧
      (Instr.ldaImm 0x84).mnemonic ≠ .plp ∧ t.flags.n ≠ std.flags.n :=
  ⟨_, rfl, by decide, by decide, by decide⟩

theorem witness_LoadsSetRegisterAndZN :
    ((Instr.ldaImm 0x80).operand = .source (.immediate 0x80) ∧ (Instr.ldaImm 0x80).mnemonic = .lda) ∧
    ((Instr.ldxZpY 0xF0).operand = .source (.memory (.zeroPageY 0xF0)) ∧ (Instr.ldxZpY 0xF0).mnemonic = .ldx) ∧
    ((Instr.ldyAbsX 0xFFFF).operand = .source (.memory (.absoluteX 0xFFFF)) ∧
      (Instr.ldyAbsX 0xFFFF).mnemonic = .ldy) := by decide

theorem witness_StoresWriteOneByte :
    (Instr.staIndY 0xFF).operand = .source (.memory (.indirectYIndexed 0xFF)) ∧
    (Instr.staIndY 0xFF).mnemonic = .sta ∧
    (Instr.stxZp 0).operand = .source (.memory (.zeroPage 0)) ∧ (Instr.stxZp 0).mnemonic = .stx ∧
    (Instr.styAbs 0xFFFF).operand = .source (.memory (.absolute 0xFFFF)) ∧ (Instr.styAbs 0xFFFF).mnemonic = .sty := by
  decide

theorem witness_PullInstructionsReadTheStack :
    (0x80 : Byte) = (load std 0x0100 [0x80]).mem.read (stackAddr ((load std 0x0100 [0x80]).sp + 1)) := by decide

-- INC of 0xFF and DEC of 0x00 are the wraps.
theorem witness_IncDecChangeOneByte :
    ((Instr.incAbs 0x3000).operand = .source (.memory (.absolute 0x3000)) ∧ (Instr.incAbs 0x3000).mnemonic = .inc ∧
      (0x00 : Byte) = BitVec.ofNat 8 (((load std 0x3000 [0xFF]).mem.read 0x3000).toNat + 1)) ∧
    ((Instr.decZp 0x10).operand = .source (.memory (.zeroPage 0x10)) ∧ (Instr.decZp 0x10).mnemonic = .dec ∧
      (0xFF : Byte) = BitVec.ofNat 8 ((std.mem.read 0x0010).toNat + 255)) := by decide

theorem witness_LogicalOpsCombineA :
    ((Instr.andImm 0x0F).operand = .source (.immediate 0x0F) ∧ (Instr.andImm 0x0F).mnemonic = .and) ∧
    ((Instr.oraAbsY 0xFFFF).operand = .source (.memory (.absoluteY 0xFFFF)) ∧
      (Instr.oraAbsY 0xFFFF).mnemonic = .ora) ∧
    ((Instr.eorIndX 0xFE).operand = .source (.memory (.xIndexedIndirect 0xFE)) ∧
      (Instr.eorIndX 0xFE).mnemonic = .eor) := by
  decide

theorem witness_BitTestsTheOperand :
    (Instr.bitZp 0x10).operand = .source (.memory (.zeroPage 0x10)) ∧ (Instr.bitZp 0x10).mnemonic = .bit ∧
    (0xC0 : Byte) = (load std 0x0010 [0xC0]).mem.read (effectiveAddress (.zeroPage 0x10) (load std 0x0010 [0xC0])) := by
  decide

theorem witness_JsrJumps :
    std.params.jsrPushesReturn = false ∧ (base true true).params.jsrPushesReturn = true := by decide

theorem witness_PcAdvancesByTheLength :
    Instr.mnemonic .inx ≠ .jsr ∧ Instr.mnemonic .inx ≠ .brk ∧
    ∃ t : State, exec .inx { std with pc := 0xFFFF } = .next t ∧ t.pc = 0x0000 :=
  ⟨by decide, by decide, _, rfl, rfl⟩

theorem witness_IncDecLeaveCarryAndOverflow :
    Instr.mnemonic .dex ∈ [Mnemonic.inc, .dec, .inx, .iny, .dex, .dey] ∧
    ∃ t : State, exec .dex { std with flags := allSet } = .next t ∧ t.x = 0xFF := ⟨by decide, _, rfl, by decide⟩

-- One instruction that changes each register.
theorem witness_RegistersChange :
    (∃ t : State, exec (.ldaImm 1) std = .next t ∧ t.a ≠ std.a) ∧
    (∃ t : State, exec .tsx std = .next t ∧ t.x ≠ std.x) ∧
    (∃ t : State, exec .dey std = .next t ∧ t.y ≠ std.y) ∧
    (∃ t : State, exec .pha std = .next t ∧ t.sp ≠ std.sp) ∧
    (∃ t : State, exec (.jsrAbs 0) (base true false) = .next t ∧ t.sp ≠ (base true false).sp) :=
  ⟨⟨_, rfl, by decide⟩, ⟨_, rfl, by decide⟩, ⟨_, rfl, by decide⟩, ⟨_, rfl, by decide⟩, ⟨_, rfl, by decide⟩⟩

-- One instruction that changes each flag.
theorem witness_FlagsChange :
    (∃ t : State, exec .sec std = .next t ∧ t.flags.c ≠ std.flags.c) ∧
    (∃ t : State, exec .sei std = .next t ∧ t.flags.i ≠ std.flags.i) ∧
    (∃ t : State, exec .sed std = .next t ∧ t.flags.d ≠ std.flags.d) ∧
    (∃ t : State, exec .brk std = .next t ∧ t.flags.b ≠ std.flags.b) ∧
    (∃ t : State, exec .clv { std with flags := allSet } = .next t ∧ t.flags.v ≠ allSet.v) ∧
    (∃ t : State, exec .tay std = .next t ∧ t.flags.z ≠ std.flags.z) :=
  ⟨⟨_, rfl, by decide⟩, ⟨_, rfl, by decide⟩, ⟨_, rfl, by decide⟩, ⟨_, rfl, by decide⟩, ⟨_, rfl, by decide⟩,
    ⟨_, rfl, by decide⟩⟩

theorem witness_MemoryChanges :
    (∃ t : State, exec .pha { std with a := 1 } = .next t ∧
      (0x01FE : Addr) ∉ storedAddresses .pha { std with a := 1 }) ∧
    (storedAddresses (.jsrAbs 0) (base true false)).length = 2 ∧
    Instr.mnemonic .txs ∉ [Mnemonic.sta, .stx, .sty, .inc, .dec, .pha, .php, .jsr] :=
  ⟨⟨_, rfl, by decide⟩, by decide, by decide⟩

theorem witness_ControlState :
    (∃ t : State, exec .brk std = .next t) ∧ Instr.mnemonic .brk = .brk ∧ Instr.mnemonic .php ≠ .brk :=
  ⟨⟨_, rfl⟩, rfl, by decide⟩

theorem witness_StepRunsTheDecodedInstruction :
    let s := at0200 0xA9 0x84 0x00
    s.runState = .running ∧
    decode [s.mem.read s.pc, s.mem.read (s.pc + 1), s.mem.read (s.pc + 2)] = .ok (.ldaImm 0x84) [0x00] := by decide

theorem witness_HaltedStepChangesNothing : (brkHalt std).runState = .halted := by decide

theorem witness_UnassignedOpcode :
    (at0200 0xEA 0 0).runState = .running ∧
    (at0200 0xEA 0 0).mem.read (at0200 0xEA 0 0).pc ∈ unassignedBytes := by decide

theorem witness_IllegalPair :
    legalPair .jsr .indirect = false ∧ legalPair .lda .accumulator = false ∧ legalPair .brk .relative = false ∧
    legalPair .sta .immediate = false := by decide

theorem witness_LegalPair : legalPair .dec .absoluteX = true := by decide

theorem witness_FaultingStep :
    ∃ t : State, step (at0200 0xFF 0 0) = .next t ∧ t.fault ≠ (at0200 0xFF 0 0).fault := ⟨_, rfl, by decide⟩

-- Both ways a running step halts: by BRK, and by a fault.
theorem witness_RunningStepHalts :
    (std.runState = .running ∧ std.fault = .none ∧ ∃ t : State, step std = .next t ∧ t.endedWell) ∧
    (∃ t : State, step (at0200 0x02 0 0) = .next t ∧ t.endedBadly) :=
  ⟨⟨rfl, rfl, _, rfl, by decide⟩, _, rfl, by decide⟩

theorem witness_StepKeepsTheInvariant :
    (at0200 0x85 0x10 0x00).inv = true ∧ ∃ t : State, step (at0200 0x85 0x10 0x00) = .next t := ⟨by decide, _, rfl⟩

theorem witness_FlagsInfluenceOnlyPhp :
    fetchInstr (at0200 0xE8 0 0) ≠ .instr .php ∧ (∃ t : State, step (at0200 0xE8 0 0) = .next t) ∧
    ∃ u : State, step { at0200 0xE8 0 0 with flags := allSet } = .next u := ⟨by decide, ⟨_, rfl⟩, _, rfl⟩

-- Its PHP clause: the two runs push different bytes.
theorem witness_FlagsInfluencePhp :
    fetchInstr (at0200 0x08 0 0) = .instr .php ∧
    ∃ t u : State, step (at0200 0x08 0 0) = .next t ∧ step { at0200 0x08 0 0 with flags := allSet } = .next u ∧
      t.mem.read 0x01FF ≠ u.mem.read 0x01FF := ⟨by decide, _, _, rfl, rfl, by decide⟩

theorem witness_ParametersInfluenceOnlyJsrAndPhp :
    fetchInstr (at0200 0x48 0 0) = .instr .pha ∧ (∃ t : State, step (at0200 0x48 0 0) = .next t) ∧
    ∃ u : State, step { at0200 0x48 0 0 with params := { jsrPushesReturn := true, pBit5 := true } } = .next u :=
  ⟨by decide, ⟨_, rfl⟩, _, rfl⟩

-- L-13: STA writes the unassigned 0xEA just after itself.
theorem witness_StoreIsSeenByTheNextFetch :
    let s := { at0200 0x8D 0x03 0x02 with a := 0xEA }
    s.runState = .running ∧ 0x0203 ∈ storedAddresses (.staAbs 0x0203) s ∧
    decodeOpcode (storedByte (.staAbs 0x0203) s 0x0203) = none ∧
    ∃ t : State, exec (.staAbs 0x0203) s = .next t ∧ t.pc = 0x0203 :=
  ⟨by decide, by decide, by decide, _, rfl, by decide⟩

-- The other clause: INC turns the byte 0xE7 just after itself into 0xE8, INX.
theorem witness_StoreOfAnInstructionIsSeen :
    let s := load std 0x0200 [0xEE, 0x03, 0x02, 0xE7]
    s.runState = .running ∧ 0x0203 ∈ storedAddresses (.incAbs 0x0203) s ∧
    decodeOpcode (storedByte (.incAbs 0x0203) s 0x0203) = some (.inx, .implicit) ∧
    ∃ t : State, exec (.incAbs 0x0203) s = .next t ∧ t.pc = 0x0203 :=
  ⟨by decide, by decide, by decide, _, rfl, by decide⟩

-- A pushing JSR stores two bytes; its target can be either of them.
theorem witness_StoreOfJsrIsSeen :
    let s := base true false
    storedAddresses (.jsrAbs 0x01FE) s = [0x01FF, 0x01FE] ∧ storedByte (.jsrAbs 0x01FE) s 0x01FF = 0x02 ∧
    storedByte (.jsrAbs 0x01FE) s 0x01FE = 0x02 ∧
    ∃ t : State, exec (.jsrAbs 0x01FE) s = .next t ∧ t.pc = 0x01FE :=
  ⟨by decide, by decide, by decide, _, rfl, by decide⟩

theorem witness_RunEndsHalted : ∃ t : State, runToHalt 1 std = some t := ⟨_, rfl⟩

theorem witness_PlacedInstruction : decodeTableWord 16 0x84A9 = some (.ldaImm 0x84) := by decide

end Sys2Proof.Machine.Test
end

section
/-! PROOFS. The open parameters of rule R5: every operation the executor is built from, but the push of JSR and the byte
of PHP, leaves the same state but for the parameters, whatever they are. -/

namespace Sys2Proof.Machine

/-! ## What reads no parameter -/

@[simp] theorem fetchInstr_withParams (s : State) (p : Params) : fetchInstr { s with params := p } = fetchInstr s := rfl

@[simp] theorem effectiveAddress_withParams (f : AddrForm) (s : State) (p : Params) :
    effectiveAddress f { s with params := p } = effectiveAddress f s := by cases f <;> rfl

@[simp] theorem readOperand_withParams (src : Source) (s : State) (p : Params) :
    readOperand src { s with params := p } = readOperand src s := by
  cases src with
  | immediate b => rfl
  | memory f => simp [readOperand]

@[simp] theorem State.getReg_withParams (s : State) (r : Reg) (p : Params) :
    ({ s with params := p } : State).getReg r = s.getReg r := by cases r <;> rfl

@[simp] theorem State.setReg_withParams (s : State) (r : Reg) (v : Byte) (p : Params) :
    ({ s with params := p } : State).setReg r v = { s.setReg r v with params := p } := by cases r <;> rfl

/-! ## The operations of the executor -/

/-- An operation that completes, and from two states that differ in the parameters only leaves two such states. -/
def IgnoresParams (op : State → Host.Outcome State Fault Refusal) : Prop :=
  ∀ (s : State) (p : Params), ∃ t : State, op s = .next t ∧ op { s with params := p } = .next { t with params := p }

theorem loadRegister_ignoresParams (r : Reg) (src : Source) : IgnoresParams (loadRegister r src) :=
  fun s p => ⟨_, loadRegister_next r src s, by simp [loadRegister_next]⟩

theorem storeRegister_ignoresParams (r : Reg) (f : AddrForm) : IgnoresParams (storeRegister r f) :=
  fun s p => ⟨_, storeRegister_next r f s, by simp [storeRegister_next]⟩

theorem modifyMemory_ignoresParams (op : AluOp) (f : AddrForm) : IgnoresParams (modifyMemory op f) :=
  fun s p => ⟨_, modifyMemory_next op f s, by simp [modifyMemory_next]⟩

theorem modifyRegister_ignoresParams (op : AluOp) (r : Reg) : IgnoresParams (modifyRegister op r) :=
  fun s p => ⟨_, modifyRegister_next op r s, by simp [modifyRegister_next]⟩

theorem combineA_ignoresParams (op : AluOp) (src : Source) : IgnoresParams (combineA op src) :=
  fun s p => ⟨_, combineA_next op src s, by simp [combineA_next]⟩

theorem bitTestA_ignoresParams (f : AddrForm) : IgnoresParams (bitTestA f) :=
  fun s p => ⟨_, bitTestA_next f s, by simp [bitTestA_next]⟩

theorem flagOp_ignoresParams (name : FlagName) (value : Bool) : IgnoresParams (flagOp name value) :=
  fun s _ => ⟨_, flagOp_next name value s, rfl⟩

/-! ## Every instruction, and the step -/

/-- Only JSR (R160) and PHP (R133) read the parameters. -/
theorem exec_ignoresParams (i : Instr) (hjsr : ∀ w : Addr, i ≠ .jsrAbs w) (hphp : i ≠ .php) :
    IgnoresParams (exec i) := by
  cases i with
  | ldaImm | ldaZp | ldaZpX | ldaAbs | ldaAbsX | ldaAbsY | ldaIndX | ldaIndY
  | ldxImm | ldxZp | ldxZpY | ldxAbs | ldxAbsY | ldyImm | ldyZp | ldyZpX | ldyAbs | ldyAbsX =>
    exact loadRegister_ignoresParams _ _
  | staZp | staZpX | staAbs | staAbsX | staAbsY | staIndX | staIndY
  | stxZp | stxZpY | stxAbs | styZp | styZpX | styAbs => exact storeRegister_ignoresParams _ _
  | incZp | incZpX | incAbs | incAbsX | decZp | decZpX | decAbs | decAbsX => exact modifyMemory_ignoresParams _ _
  | inx | iny | dex | dey => exact modifyRegister_ignoresParams _ _
  | andImm | andZp | andZpX | andAbs | andAbsX | andAbsY | andIndX | andIndY
  | oraImm | oraZp | oraZpX | oraAbs | oraAbsX | oraAbsY | oraIndX | oraIndY
  | eorImm | eorZp | eorZpX | eorAbs | eorAbsX | eorAbsY | eorIndX | eorIndY => exact combineA_ignoresParams _ _
  | bitZp | bitAbs => exact bitTestA_ignoresParams _
  | clc | cld | cli | clv | sec | sed | sei => exact flagOp_ignoresParams _ _
  | tax | tay | txa | tya | tsx | txs | pha | pla | plp | brk => exact fun s p => ⟨_, rfl, rfl⟩
  | jsrAbs w => exact absurd rfl (hjsr w)
  | php => exact absurd rfl hphp

/-- A HALTED machine does nothing (R72). -/
theorem step_halted {s : State} (h : s.runState = .halted) : step s = .next s := by
  unfold step
  rw [h]

/-- A step that fetches neither JSR nor PHP completes, and leaves states that differ in the parameters only. -/
theorem step_withParams {s : State} (hjsr : ∀ w : Addr, fetchInstr s ≠ .instr (.jsrAbs w))
    (hphp : fetchInstr s ≠ .instr .php) (p : Params) :
    ∃ t : State, step s = .next t ∧ step { s with params := p } = .next { t with params := p } := by
  have hstate : s.runState = .halted ∨ s.runState = .running := by cases s.runState <;> simp
  obtain hhalted | hrunning := hstate
  · exact ⟨s, step_halted hhalted, step_halted hhalted⟩
  · rw [step_running hrunning, step_running (s := { s with params := p }) hrunning,
      fetchInstr_withParams s p]
    cases hfetch : fetchInstr s with
    | instr i =>
      exact exec_ignoresParams i (fun w hi => hjsr w (hi ▸ hfetch)) (fun hi => hphp (hi ▸ hfetch)) s p
    | trap record => exact ⟨raiseFault record s, rfl, rfl⟩

/-- Settles O55: HALTED, a fault entry, and every instruction but JSR and PHP ignore the parameters. -/
theorem parametersInfluenceOnlyJsrAndPhp : Obligations.ParametersInfluenceOnlyJsrAndPhp := by
  intro s t u p hjsr hphp ht hu
  obtain ⟨v, hs, hs'⟩ := step_withParams hjsr hphp p
  cases ht.symm.trans hs
  cases hu.symm.trans hs'
  rfl

end Sys2Proof.Machine
end

section
/-! PROOFS. The status byte (R14 to R16) and what reset leaves (R22, R200). -/

namespace Sys2Proof.Machine

/-! ## The status byte -/

/-- The packed byte is the list of its eight bits, from bit 0 up (R14). -/
theorem packP_eq_ofBoolListLE (bit5 : Bool) (f : Flags) :
    packP bit5 f = BitVec.ofBoolListLE [f.c, f.z, f.i, f.d, f.b, bit5, f.v, f.n] := by
  apply BitVec.eq_of_toNat_eq
  have hc := f.c.toNat_lt
  have hz := f.z.toNat_lt
  have hi := f.i.toNat_lt
  have hd := f.d.toNat_lt
  have hb := f.b.toNat_lt
  have h5 := bit5.toNat_lt
  have hv := f.v.toNat_lt
  have hn := f.n.toNat_lt
  simp only [packP, BitVec.ofBoolListLE, BitVec.toNat_concat, BitVec.toNat_ofNat, List.length_nil, pow_zero,
    Nat.zero_mod]
  omega

theorem packP_getLsbD (bit5 : Bool) (f : Flags) (k : Nat) :
    (packP bit5 f).getLsbD k = [f.c, f.z, f.i, f.d, f.b, bit5, f.v, f.n].getD k false := by
  rw [packP_eq_ofBoolListLE, BitVec.getLsbD_ofBoolListLE]

/-- Settles O19: the packed byte bit by bit; unpacking is read off its definition. -/
theorem statusByteLayout : Obligations.StatusByteLayout := by
  refine ⟨fun bit5 f k => ?_, fun b => rfl⟩
  rw [packP_getLsbD]
  match k with
  | 0 | 1 | 2 | 3 | 4 | 5 | 6 | 7 | _ + 8 => rfl

theorem unpackP_packP (bit5 : Bool) (f : Flags) : unpackP (packP bit5 f) = f := by
  simp only [unpackP, packP_getLsbD]
  rfl

theorem packP_unpackP (bit5 : Bool) (b : Byte) :
    packP bit5 (unpackP b) = (b &&& 0xDF) ||| (BitVec.ofNat 8 bit5.toNat <<< 5) := by
  apply BitVec.eq_of_getLsbD_eq
  intro k hk
  rw [packP_getLsbD]
  match k, hk with
  | 0, _ | 1, _ | 2, _ | 3, _ | 4, _ | 5, _ | 6, _ | 7, _ => cases bit5 <;> simp

/-- Settles O18: both round trips go bit by bit through the layout of the byte. -/
theorem statusByteRoundTrip : Obligations.StatusByteRoundTrip := ⟨unpackP_packP, packP_unpackP⟩

/-! ## Reset -/

/-- Settles O51: empty memory is canonical, and RUNNING with no record is the first row of R189. -/
theorem resetHasTheInvariant : Obligations.ResetHasTheInvariant := by
  intro p
  rw [State.inv, Memory.wf_reset, Bool.true_and]
  simp [State.stands]

theorem Memory.read_nil (k : Addr) : Memory.read [] k = 0 := rfl

/-- Settles O52: reset reads nothing of the state but the parameters, and the empty memory reads as zero. -/
theorem resetLeavesTheResetValues : Obligations.ResetLeavesTheResetValues := by
  intro s
  simp [Memory.read_nil, Flags.clear, Config.resetSP, Config.resetPC, State.reset]

end Sys2Proof.Machine
end

section
/-! PROOFS. What an instruction can do, said once: its effect beside the flags, by mnemonic, and the one command it
gives the flag unit (R103). The frames of the registers, the flags and the control state follow from it,
and so does that the flags reach nothing but the byte PHP pushes. -/

namespace Sys2Proof.Machine

/-! ## The effect of an instruction -/

/-- The mnemonics that put one result into a general register, and set Z and N from it, without the stack. -/
def resultMnemonics : Reg → List Mnemonic
  | .a => [.lda, .txa, .tya, .and, .ora, .eor]
  | .x => [.ldx, .tax, .tsx, .inx, .dex]
  | .y => [.ldy, .tay, .iny, .dey]

/-- The mnemonics that the table of R17 lists for Z and N. -/
def znMnemonics : List Mnemonic :=
  [.lda, .ldx, .ldy, .tax, .tay, .txa, .tya, .tsx, .pla, .inc, .dec, .inx, .iny, .dex, .dey, .and, .ora, .eor,
   .bit, .plp]

theorem resultMnemonics_subset (r : Reg) : resultMnemonics r ⊆ znMnemonics := by cases r <;> decide

/-- The mnemonics that set or clear one named flag (R170 to R176). -/
def flagMnemonics : FlagName → List Mnemonic
  | .c => [.clc, .sec]
  | .i => [.cli, .sei]
  | .d => [.cld, .sed]
  | .b => []
  | .v => [.clv]

theorem brk_notMem_flagMnemonics (name : FlagName) : .brk ∉ flagMnemonics name := by cases name <;> decide

/-- `Effect s mn t cmd`: an instruction with the mnemonic `mn` can take the state `s` to `t`, which has the flags of `s`
still, and then give the flag unit the command `cmd`. Values, addresses and PC are left free: what stands here is what
an instruction may touch. -/
inductive Effect (s : State) : Mnemonic → State → FlagCommand → Prop
  | result {mn : Mnemonic} (r : Reg) (v : Byte) (pc : Addr) (h : mn ∈ resultMnemonics r) :
      Effect s mn { s.setReg r v with pc := pc } (.zn v)
  | store {mn : Mnemonic} (k : Addr) (v : Byte) (pc : Addr) (h : mn ∈ [.sta, .stx, .sty]) :
      Effect s mn { s.store k v with pc := pc } .keep
  | modify {mn : Mnemonic} (k : Addr) (v : Byte) (pc : Addr) (h : mn ∈ [.inc, .dec]) :
      Effect s mn { s.store k v with pc := pc } (.zn v)
  | bitTest (a v : Byte) (pc : Addr) : Effect s .bit { s with pc := pc } (.bitTest a v)
  | setOne {mn : Mnemonic} (name : FlagName) (value : Bool) (pc : Addr) (h : mn ∈ flagMnemonics name) :
      Effect s mn { s with pc := pc } (.setOne name value)
  | push {mn : Mnemonic} (v : Byte) (pc : Addr) (h : mn ∈ [.pha, .php]) :
      Effect s mn { s.push v with pc := pc } .keep
  | pullA (v : Byte) (pc : Addr) : Effect s .pla { s.pulled.setReg .a v with pc := pc } (.zn v)
  | pullFlags (v : Byte) (pc : Addr) : Effect s .plp { s.pulled with pc := pc } (.loadAll v)
  | setSp (v : Byte) (pc : Addr) : Effect s .txs { s with sp := v, pc := pc } .keep
  | jump (pc : Addr) : Effect s .jsr { s with pc := pc } .keep
  | call (pc : Addr) (h : s.params.jsrPushesReturn = true) : Effect s .jsr { pushReturn s with pc := pc } .keep
  | halt : Effect s .brk { s with pc := Config.brkPC, runState := .halted } (.setOne .b true)

/-- An operation that does what the mnemonic can do, and reads no flag: from states that differ in their flags only it
has the same effect and gives the same flag command. -/
def Does (mn : Mnemonic) (op : State → Host.Outcome State Fault Refusal) : Prop :=
  ∀ s : State, ∃ (t : State) (cmd : FlagCommand), Effect s mn t cmd ∧
    ∀ f : Flags, op { s with flags := f } = .next ({ t with flags := f }.command cmd)

/-! ## What reads no flag -/

@[simp] theorem effectiveAddress_withFlags (form : AddrForm) (s : State) (f : Flags) :
    effectiveAddress form { s with flags := f } = effectiveAddress form s := by cases form <;> rfl

@[simp] theorem readOperand_withFlags (src : Source) (s : State) (f : Flags) :
    readOperand src { s with flags := f } = readOperand src s := by
  cases src with
  | immediate b => rfl
  | memory form => simp [readOperand]

@[simp] theorem State.getReg_withFlags (s : State) (r : Reg) (f : Flags) :
    ({ s with flags := f } : State).getReg r = s.getReg r := by cases r <;> rfl

@[simp] theorem State.setReg_withFlags (s : State) (r : Reg) (v : Byte) (f : Flags) :
    ({ s with flags := f } : State).setReg r v = { s.setReg r v with flags := f } := by cases r <;> rfl

/-! ## The operations of the executor -/

theorem loadRegister_does {mn : Mnemonic} (r : Reg) (src : Source) (h : mn ∈ resultMnemonics r) :
    Does mn (loadRegister r src) :=
  fun s => ⟨_, _, .result r (readOperand src s) (s.pc + BitVec.ofNat 16 (1 + sourceBytes src)) h,
    fun f => by simp [loadRegister_next, State.command]⟩

theorem storeRegister_does {mn : Mnemonic} (r : Reg) (form : AddrForm) (h : mn ∈ [.sta, .stx, .sty]) :
    Does mn (storeRegister r form) :=
  fun s => ⟨_, _, .store (effectiveAddress form s) (s.getReg r) (s.pc + BitVec.ofNat 16 (1 + formBytes form)) h,
    fun f => by simp [storeRegister_next, State.store]⟩

/-- A transfer does what its mnemonic can do, where its source is read from no flag. -/
theorem transferTo_does {mn : Mnemonic} (r : Reg) (source : State → Byte)
    (hsource : ∀ (s : State) (f : Flags), source { s with flags := f } = source s) (h : mn ∈ resultMnemonics r) :
    Does mn (fun s => transferTo r (source s) s) :=
  fun s => ⟨_, _, .result r (source s) (s.pc + 1) h, fun f => by simp [transferTo_next, hsource, State.command]⟩

theorem modifyMemory_does {mn : Mnemonic} (op : AluOp) (form : AddrForm) (h : mn ∈ [.inc, .dec]) :
    Does mn (modifyMemory op form) :=
  fun s => ⟨_, _, .modify (effectiveAddress form s) (alu op 0 (s.mem.read (effectiveAddress form s)))
    (s.pc + BitVec.ofNat 16 (1 + formBytes form)) h,
    fun f => by simp [modifyMemory_next, State.store, State.command]⟩

theorem modifyRegister_does {mn : Mnemonic} (op : AluOp) (r : Reg) (h : mn ∈ resultMnemonics r) :
    Does mn (modifyRegister op r) :=
  fun s => ⟨_, _, .result r (alu op 0 (s.getReg r)) (s.pc + 1) h,
    fun f => by simp [modifyRegister_next, State.command]⟩

theorem combineA_does {mn : Mnemonic} (op : AluOp) (src : Source) (h : mn ∈ resultMnemonics .a) :
    Does mn (combineA op src) :=
  fun s => ⟨_, _, .result .a (alu op s.a (readOperand src s)) (s.pc + BitVec.ofNat 16 (1 + sourceBytes src)) h,
    fun f => by simp [combineA_next, State.setReg, State.command]⟩

theorem bitTestA_does (form : AddrForm) : Does .bit (bitTestA form) :=
  fun s => ⟨_, _, .bitTest s.a (readOperand (.memory form) s) (s.pc + BitVec.ofNat 16 (1 + formBytes form)),
    fun f => by simp [bitTestA_next, State.command]⟩

theorem flagOp_does {mn : Mnemonic} (name : FlagName) (value : Bool) (h : mn ∈ flagMnemonics name) :
    Does mn (flagOp name value) :=
  fun s => ⟨_, _, .setOne name value (s.pc + 1) h, fun _ => rfl⟩

theorem execJsrAbs_does (w : Addr) : Does .jsr (execJsrAbs w) := by
  intro s
  cases hpush : s.params.jsrPushesReturn with
  | true => exact ⟨_, _, .call w hpush, fun f => by simp [execJsrAbs, hpush, pushReturn_eq, effectiveAddress]⟩
  | false => exact ⟨_, _, .jump w, fun f => by simp [execJsrAbs, hpush, effectiveAddress]⟩

/-! ## Every instruction -/

/-- Only PHP reads a flag (R133). -/
theorem exec_does (i : Instr) (hphp : i ≠ .php) : Does i.mnemonic (exec i) := by
  cases i with
  | ldaImm | ldaZp | ldaZpX | ldaAbs | ldaAbsX | ldaAbsY | ldaIndX | ldaIndY
  | ldxImm | ldxZp | ldxZpY | ldxAbs | ldxAbsY | ldyImm | ldyZp | ldyZpX | ldyAbs | ldyAbsX =>
    exact loadRegister_does _ _ (by simp [Instr.mnemonic, resultMnemonics])
  | staZp | staZpX | staAbs | staAbsX | staAbsY | staIndX | staIndY
  | stxZp | stxZpY | stxAbs | styZp | styZpX | styAbs => exact storeRegister_does _ _ (by simp [Instr.mnemonic])
  | tax | tay => exact transferTo_does _ State.a (fun _ _ => rfl) (by decide)
  | txa => exact transferTo_does _ State.x (fun _ _ => rfl) (by decide)
  | tya => exact transferTo_does _ State.y (fun _ _ => rfl) (by decide)
  | tsx => exact transferTo_does _ State.sp (fun _ _ => rfl) (by decide)
  | txs => exact fun s => ⟨_, _, .setSp s.x (s.pc + 1), fun _ => rfl⟩
  | pha => exact fun s => ⟨_, _, .push s.a (s.pc + 1) (by decide), fun _ => rfl⟩
  | php => exact absurd rfl hphp
  | pla => exact fun s => ⟨_, _, .pullA s.pulledByte (s.pc + 1), fun _ => rfl⟩
  | plp => exact fun s => ⟨_, _, .pullFlags s.pulledByte (s.pc + 1), fun _ => rfl⟩
  | incZp | incZpX | incAbs | incAbsX | decZp | decZpX | decAbs | decAbsX =>
    exact modifyMemory_does _ _ (by simp [Instr.mnemonic])
  | inx | iny | dex | dey => exact modifyRegister_does _ _ (by decide)
  | andImm | andZp | andZpX | andAbs | andAbsX | andAbsY | andIndX | andIndY
  | oraImm | oraZp | oraZpX | oraAbs | oraAbsX | oraAbsY | oraIndX | oraIndY
  | eorImm | eorZp | eorZpX | eorAbs | eorAbsX | eorAbsY | eorIndX | eorIndY =>
    exact combineA_does _ _ (by simp [Instr.mnemonic, resultMnemonics])
  | bitZp | bitAbs => exact bitTestA_does _
  | jsrAbs w => exact execJsrAbs_does w
  | brk => exact fun s => ⟨_, _, .halt, fun _ => rfl⟩
  | clc | cld | cli | clv | sec | sed | sei => exact flagOp_does _ _ (by decide)

/-- PHP pushes the status byte and moves PC by one (R133). -/
theorem exec_php (s : State) : exec .php s = .next { s.push (statusByte s) with pc := s.pc + 1 } := rfl

/-- The flags are left to the command. -/
theorem Effect.flags_eq {s t : State} {mn : Mnemonic} {cmd : FlagCommand} (h : Effect s mn t cmd) :
    t.flags = s.flags := by
  cases h with
  | result | pullA => simp
  | store | modify | bitTest | setOne | push | pullFlags | setSp | jump | call | halt => rfl

/-- Everything an instruction that answers a next state can have done: an effect that its mnemonic can have, and the
flag command after it. -/
theorem exec_effect {i : Instr} {s u : State} (h : exec i s = .next u) :
    ∃ (t : State) (cmd : FlagCommand), Effect s i.mnemonic t cmd ∧ u = t.command cmd := by
  by_cases hphp : i = .php
  · subst hphp
    cases (exec_php s).symm.trans h
    exact ⟨_, .keep, .push (statusByte s) (s.pc + 1) (by decide), rfl⟩
  · obtain ⟨t, cmd, heffect, hexec⟩ := exec_does i hphp s
    cases h.symm.trans (hexec s.flags)
    exact ⟨t, cmd, heffect, by rw [← heffect.flags_eq]⟩

/-! ## The frames -/

section
variable {s t : State} {mn : Mnemonic} {cmd : FlagCommand}

theorem Effect.mem_of_getReg_ne (h : Effect s mn t cmd) {r : Reg} (hr : t.getReg r ≠ s.getReg r) :
    mn ∈ resultMnemonics r ∨ r = .a ∧ mn = .pla := by
  cases h with
  | result r' v pc h =>
    by_cases hrr : r = r'
    · exact .inl (hrr ▸ h)
    · have hkept : (s.setReg r' v).getReg r = s.getReg r := by simp [hrr]
      exact absurd hkept hr
  | pullA =>
    cases r with
    | a => exact .inr ⟨rfl, rfl⟩
    | x | y => exact absurd rfl hr
  | store | modify | bitTest | setOne | push | pullFlags | setSp | jump | call | halt => exact absurd rfl hr

theorem Effect.mem_of_a_ne (h : Effect s mn t cmd) (ha : t.a ≠ s.a) :
    mn ∈ [.lda, .pla, .txa, .tya, .and, .ora, .eor] := by
  obtain hmn | ⟨-, rfl⟩ := h.mem_of_getReg_ne (r := .a) ha
  · exact (by decide : resultMnemonics .a ⊆ [.lda, .pla, .txa, .tya, .and, .ora, .eor]) hmn
  · decide

theorem Effect.mem_of_x_ne (h : Effect s mn t cmd) (hx : t.x ≠ s.x) : mn ∈ [.ldx, .tax, .tsx, .inx, .dex] :=
  (h.mem_of_getReg_ne (r := .x) hx).resolve_right (by simp)

theorem Effect.mem_of_y_ne (h : Effect s mn t cmd) (hy : t.y ≠ s.y) : mn ∈ [.ldy, .tay, .iny, .dey] :=
  (h.mem_of_getReg_ne (r := .y) hy).resolve_right (by simp)

theorem Effect.mem_of_sp_ne (h : Effect s mn t cmd) (hsp : t.sp ≠ s.sp) :
    mn ∈ [.pha, .php, .pla, .plp, .txs] ∨ mn = .jsr ∧ s.params.jsrPushesReturn = true := by
  cases h with
  | push v pc h => exact .inl ((by decide : [Mnemonic.pha, .php] ⊆ [.pha, .php, .pla, .plp, .txs]) h)
  | pullA | pullFlags | setSp => exact .inl (by decide)
  | call pc h => exact .inr ⟨rfl, h⟩
  | result r => exact absurd (State.setReg_sp s r _) hsp
  | store | modify | bitTest | setOne | jump | halt => exact absurd rfl hsp

theorem Effect.fault_params_eq (h : Effect s mn t cmd) : t.fault = s.fault ∧ t.params = s.params := by
  cases h with
  | result | pullA => simp
  | store | modify | bitTest | setOne | push | pullFlags | setSp | jump | call | halt => exact ⟨rfl, rfl⟩

theorem Effect.runState_eq (h : Effect s mn t cmd) (hbrk : mn ≠ .brk) : t.runState = s.runState := by
  cases h with
  | halt => exact absurd rfl hbrk
  | result | pullA => simp
  | store | modify | bitTest | setOne | push | pullFlags | setSp | jump | call => rfl

theorem Effect.halted_of_brk (h : Effect s .brk t cmd) : t.runState = .halted := by
  cases h with
  | halt => rfl
  | result r _ _ h => exact absurd (resultMnemonics_subset r h) (by decide)
  | setOne name _ _ h => exact absurd h (brk_notMem_flagMnemonics name)
  | store _ _ _ h | modify _ _ _ h | push _ _ h => exact absurd h (by decide)

/-- A flag changes only by the commands that the table of R17 allows. -/
theorem Effect.flags_table (h : Effect s mn t cmd) (f : Flags) :
    ((flagUpdate cmd f).c ≠ f.c → mn ∈ [.clc, .sec, .plp]) ∧
    ((flagUpdate cmd f).i ≠ f.i → mn ∈ [.cli, .sei, .plp]) ∧
    ((flagUpdate cmd f).d ≠ f.d → mn ∈ [.cld, .sed, .plp]) ∧
    ((flagUpdate cmd f).b ≠ f.b → mn ∈ [.brk, .plp]) ∧
    ((flagUpdate cmd f).v ≠ f.v → mn ∈ [.clv, .bit, .plp]) ∧
    ((flagUpdate cmd f).z ≠ f.z ∨ (flagUpdate cmd f).n ≠ f.n → mn ∈ znMnemonics) := by
  cases h with
  | store | push | setSp | jump | call => simp
  | result r v pc h =>
    exact ⟨absurd rfl, absurd rfl, absurd rfl, absurd rfl, absurd rfl, fun _ => resultMnemonics_subset r h⟩
  | modify k v pc h =>
    exact ⟨absurd rfl, absurd rfl, absurd rfl, absurd rfl, absurd rfl,
      fun _ => (by decide : [.inc, .dec] ⊆ znMnemonics) h⟩
  | pullA => exact ⟨absurd rfl, absurd rfl, absurd rfl, absurd rfl, absurd rfl, fun _ => by decide⟩
  | bitTest => exact ⟨absurd rfl, absurd rfl, absurd rfl, absurd rfl, fun _ => by decide, fun _ => by decide⟩
  | pullFlags => simp [znMnemonics]
  | halt => simp
  | setOne name value pc h =>
    cases name with
    | c => simpa using fun _ => (by decide : flagMnemonics .c ⊆ [.clc, .sec, .plp]) h
    | i => simpa using fun _ => (by decide : flagMnemonics .i ⊆ [.cli, .sei, .plp]) h
    | d => simpa using fun _ => (by decide : flagMnemonics .d ⊆ [.cld, .sed, .plp]) h
    | b => exact absurd h List.not_mem_nil
    | v => simpa using fun _ => (by decide : flagMnemonics .v ⊆ [.clv, .bit, .plp]) h
end

/-- Settles O36: a register changes only where an effect names it. -/
theorem registersChangeOnlyAsTheirTableSays : Obligations.RegistersChangeOnlyAsTheirTableSays := by
  intro i s u h
  obtain ⟨t, cmd, heffect, rfl⟩ := exec_effect h
  exact ⟨heffect.mem_of_a_ne, heffect.mem_of_x_ne, heffect.mem_of_y_ne, heffect.mem_of_sp_ne⟩

/-- Settles O39: only the effect of BRK names the run state, none the record or the parameters. -/
theorem controlStateChangesOnlyByBrk : Obligations.ControlStateChangesOnlyByBrk := by
  intro i s u h
  obtain ⟨t, cmd, heffect, rfl⟩ := exec_effect h
  obtain ⟨hfault, hparams⟩ := heffect.fault_params_eq
  exact ⟨hfault, hparams, heffect.runState_eq, fun hbrk => (hbrk ▸ heffect).halted_of_brk⟩

/-- Settles O37: the flags change by the one command, and only by it. -/
theorem flagsChangeOnlyAsTheirTableSays : Obligations.FlagsChangeOnlyAsTheirTableSays := by
  intro i s u h
  obtain ⟨t, cmd, heffect, rfl⟩ := exec_effect h
  rw [State.command_flags, heffect.flags_eq]
  exact heffect.flags_table s.flags

/-! ## Two runs that differ in the flags -/

/-- Each flag is left with the same value in both runs, or keeps its own old value in each (R17). -/
def FlagsSameOrKept (old new old' new' : Flags) : Prop :=
  sameOrKept old.c new.c old'.c new'.c ∧ sameOrKept old.z new.z old'.z new'.z ∧
  sameOrKept old.i new.i old'.i new'.i ∧ sameOrKept old.d new.d old'.d new'.d ∧
  sameOrKept old.b new.b old'.b new'.b ∧ sameOrKept old.v new.v old'.v new'.v ∧
  sameOrKept old.n new.n old'.n new'.n

/-- A flag command lets no flag reach another: each flag is kept, or its new value comes from the command alone. -/
theorem flagUpdate_sameOrKept (cmd : FlagCommand) (f g : Flags) :
    FlagsSameOrKept f (flagUpdate cmd f) g (flagUpdate cmd g) := by
  cases cmd with
  | keep | zn | bitTest | loadAll => simp [FlagsSameOrKept, sameOrKept]
  | setOne name => cases name <;> simp [FlagsSameOrKept, sameOrKept]

theorem State.halted_or_running (s : State) : s.runState = .halted ∨ s.runState = .running := by
  cases s.runState <;> simp

/-- The fetch reads no flag. -/
theorem step_running_withFlags {s : State} (h : s.runState = .running) (f : Flags) :
    step { s with flags := f } = perform (fetchInstr s) { s with flags := f } :=
  step_running (s := { s with flags := f }) h

/-- A step of anything but PHP has the same effect from states that differ in their flags only, and gives the same flag
command: HALTED it does nothing, a fault entry touches no flag. -/
theorem step_withFlags {s : State} (hphp : fetchInstr s ≠ .instr .php) :
    ∃ (t : State) (cmd : FlagCommand), ∀ f : Flags,
      step { s with flags := f } = .next ({ t with flags := f }.command cmd) := by
  obtain hrun | hrun := s.halted_or_running
  · exact ⟨s, .keep, fun f => step_halted hrun⟩
  · simp only [step_running_withFlags hrun]
    cases hfetch : fetchInstr s with
    | instr i =>
      obtain ⟨t, cmd, -, hexec⟩ := exec_does i (fun hi => hphp (hi ▸ hfetch)) s
      exact ⟨t, cmd, hexec⟩
    | trap record => exact ⟨raiseFault record s, .keep, fun _ => rfl⟩

/-- A step of PHP leaves the flags, and is the same from states that differ in their flags only but for one byte. -/
theorem step_php_withFlags {s : State} (hphp : fetchInstr s = .instr .php) :
    ∃ t : State, ∀ f : Flags, ∃ m : Memory, step { s with flags := f } = .next { t with flags := f, mem := m } ∧
      ∀ k : Addr, k ≠ stackAddr s.sp → m.read k = s.mem.read k := by
  obtain hrun | hrun := s.halted_or_running
  · exact ⟨s, fun f => ⟨s.mem, step_halted hrun, fun _ _ => rfl⟩⟩
  · refine ⟨{ s with sp := s.sp - 1, pc := s.pc + 1 },
      fun f => ⟨s.mem.write (stackAddr s.sp) (statusByte { s with flags := f }), ?_,
        fun k hk => Memory.read_write_other _ _ _ _ hk⟩⟩
    rw [step_running_withFlags hrun, hphp]
    exact exec_php _

/-- Settles O54: the two runs have one effect and one flag command, but for the byte that PHP pushes. -/
theorem flagsInfluenceOnlyPhp : Obligations.FlagsInfluenceOnlyPhp := by
  intro s t u f ht hu
  by_cases hphp : fetchInstr s = .instr .php
  · obtain ⟨core, hcore⟩ := step_php_withFlags hphp
    obtain ⟨m, hs, hm⟩ := hcore s.flags
    obtain ⟨m', hs', hm'⟩ := hcore f
    cases ht.symm.trans hs
    cases hu.symm.trans hs'
    exact ⟨absurd hphp, fun _ => ⟨rfl, fun k hk => (hm' k hk).trans (hm k hk).symm⟩,
      flagUpdate_sameOrKept .keep s.flags f⟩
  · obtain ⟨core, cmd, hstep⟩ := step_withFlags hphp
    cases ht.symm.trans (hstep s.flags)
    cases hu.symm.trans (hstep f)
    exact ⟨fun _ => rfl, (absurd · hphp), flagUpdate_sameOrKept cmd s.flags f⟩

end Sys2Proof.Machine
end

section
/-! PROOFS. Reading and writing memory in words (R33, R34, R45). -/

namespace Sys2Proof

/-! ## The two bytes of a word -/

theorem lowByte_eq_ofNat (w : Addr) : lowByte w = BitVec.ofNat 8 (w.toNat % 256) := by
  apply BitVec.eq_of_toNat_eq
  simp [lowByte]

theorem highByte_eq_ofNat (w : Addr) : highByte w = BitVec.ofNat 8 (w.toNat / 256) := by
  apply BitVec.eq_of_toNat_eq
  simp [highByte, Nat.shiftRight_eq_div_pow]

end Sys2Proof

namespace Sys2Proof.Machine

/-! ## Words in memory -/

theorem Memory.readWord_toNat (m : Memory) (a : Addr) :
    (m.readWord a).toNat = (m.read a).toNat + 256 * (m.read (a + 1)).toNat := by
  rw [Memory.readWord, wordOf_toNat]
  omega

/-- R34: the low byte at the address, the high byte at the next one. -/
theorem Memory.read_writeWord (m : Memory) (a v k : Addr) :
    (m.writeWord a v).read k = if k = a + 1 then highByte v else if k = a then lowByte v else m.read k := by
  rw [Memory.writeWord, Memory.read_write, Memory.read_write]

/-- Settles O8: the model's `a + 1` is the next address modulo 65,536. -/
theorem wordReadIsLittleEndianAndWraps : Obligations.WordReadIsLittleEndianAndWraps := by
  refine ⟨fun m a => ?_, fun m => m.readWord_toNat 0xFFFF, fun m => m.readWord_toNat 0x00FF⟩
  have hnext : BitVec.ofNat 16 ((a.toNat + 1) % 65536) = a + 1 := by
    apply BitVec.eq_of_toNat_eq
    simp
  rw [hnext, Memory.readWord_toNat]

/-- Settles O9: the load interface is a write to memory, of one byte or of a word's two. -/
theorem hostLoadWritesItsBytesOnly : Obligations.HostLoadWritesItsBytesOnly := by
  intro s a v w
  refine ⟨rfl, fun k => Memory.read_write s.mem a k v, rfl, fun k => ?_⟩
  rw [hostLoadWord_mem, Memory.read_writeWord, highByte_eq_ofNat, lowByte_eq_ofNat]

end Sys2Proof.Machine
end

section
/-! PROOFS. What an instruction leaves in memory, said once: each of its `storedAddresses` holds its `storedByte`,
written one after another, and nothing else is written (R38). -/

namespace Sys2Proof.Machine

/-! ## Several bytes written one after another -/

/-- The memory after the byte `f k` is written at each address `k` of a list, in order. -/
def Memory.writeAll (m : Memory) (f : Addr → Byte) (ks : List Addr) : Memory :=
  ks.foldl (fun m k => m.write k (f k)) m

theorem Memory.read_writeAll (m : Memory) (f : Addr → Byte) (ks : List Addr) (j : Addr) :
    (m.writeAll f ks).read j = if j ∈ ks then f j else m.read j := by
  induction ks generalizing m with
  | nil => simp [Memory.writeAll]
  | cons k ks ih =>
    have hcons : m.writeAll f (k :: ks) = (m.write k (f k)).writeAll f ks := rfl
    rw [hcons, ih, Memory.read_write]
    by_cases hks : j ∈ ks
    · simp [hks]
    · by_cases hk : j = k <;> simp [hks, hk]

/-! ## The addresses stored to -/

/-- The mnemonics that store (R38, last column). -/
def storingMnemonics : List Mnemonic := [.sta, .stx, .sty, .inc, .dec, .pha, .php, .jsr]

theorem storedAddresses_eq_nil {i : Instr} (h : i.mnemonic ∉ storingMnemonics) (s : State) :
    storedAddresses i s = [] := by
  unfold storedAddresses
  split <;> simp_all [storingMnemonics]

theorem storedAddresses_jsr (w : Addr) (s : State) : storedAddresses (.jsrAbs w) s =
    if s.params.jsrPushesReturn then [stackAddr s.sp, stackAddr (s.sp - 1)] else [] := rfl

/-- Only a JSR that pushes stores more than one byte. -/
theorem storedAddresses_length (i : Instr) (s : State) :
    (storedAddresses i s).length ≤ 1 ∨
    (storedAddresses i s).length = 2 ∧ i.mnemonic = .jsr ∧ s.params.jsrPushesReturn = true := by
  by_cases hjsr : i.mnemonic = .jsr
  · cases hpush : s.params.jsrPushesReturn <;> simp [storedAddresses, hjsr, hpush]
  · refine .inl ?_
    unfold storedAddresses
    split <;> simp_all

theorem stackAddr_toNat (sp : Byte) : (stackAddr sp).toNat = 256 + sp.toNat := by
  have hsp := sp.isLt
  have hbase : Config.stackBase.toNat = 256 := rfl
  rw [stackAddr, BitVec.toNat_add, zext16_toNat]
  omega

theorem stackAddr_sub_one_ne (sp : Byte) : stackAddr (sp - 1) ≠ stackAddr sp := by
  intro h
  have hnat := congrArg BitVec.toNat h
  rw [stackAddr_toNat, stackAddr_toNat] at hnat
  bv_omega

/-! ## The bytes stored -/

theorem alu_inc_eq_ofNat (a b : Byte) : alu .inc a b = BitVec.ofNat 8 (b.toNat + 1) := by
  apply BitVec.eq_of_toNat_eq
  simp [alu]

theorem alu_dec_eq_ofNat (a b : Byte) : alu .dec a b = BitVec.ofNat 8 (b.toNat + 255) := by
  apply BitVec.eq_of_toNat_eq
  simp [alu, BitVec.toNat_sub]
  omega

/-- The first byte a JSR pushes is the high byte of `pc0 + 2` (R160). -/
theorem storedByte_jsr_high (w : Addr) (s : State) :
    storedByte (.jsrAbs w) s (stackAddr s.sp) = highByte (s.pc + 2) := by
  rw [highByte_eq_ofNat, BitVec.toNat_add]
  exact if_pos rfl

/-- The second is its low byte, which goes to another address (R130, R160). -/
theorem storedByte_jsr_low (w : Addr) (s : State) :
    storedByte (.jsrAbs w) s (stackAddr (s.sp - 1)) = lowByte (s.pc + 2) := by
  have hmod : (s.pc + 2).toNat % 256 = (s.pc.toNat + 2) % 256 := by simp [BitVec.toNat_add]
  rw [lowByte_eq_ofNat, hmod]
  exact if_neg (stackAddr_sub_one_ne s.sp)

/-! ## The memory after an instruction -/

theorem Effect.mem_eq {s t : State} {mn : Mnemonic} {cmd : FlagCommand} (h : Effect s mn t cmd)
    (hmn : mn ∉ storingMnemonics) : t.mem = s.mem := by
  cases h with
  | result | pullA => simp
  | bitTest | setOne | pullFlags | setSp | jump | halt => rfl
  | store _ _ _ h => exact absurd ((by decide : [.sta, .stx, .sty] ⊆ storingMnemonics) h) hmn
  | modify _ _ _ h => exact absurd ((by decide : [.inc, .dec] ⊆ storingMnemonics) h) hmn
  | push _ _ h => exact absurd ((by decide : [.pha, .php] ⊆ storingMnemonics) h) hmn
  | call => exact absurd (by decide) hmn

theorem exec_mem_of_notMem_storing {i : Instr} {s t : State} (h : exec i s = .next t)
    (hmn : i.mnemonic ∉ storingMnemonics) : t.mem = s.mem := by
  obtain ⟨u, cmd, heffect, rfl⟩ := exec_effect h
  exact heffect.mem_eq hmn

section
variable {s t : State}

theorem storeRegister_mem {r : Reg} {f : AddrForm} (h : storeRegister r f s = .next t) :
    t.mem = s.mem.write (effectiveAddress f s) (s.getReg r) := by
  cases (storeRegister_next r f s).symm.trans h
  rfl

theorem modifyMemory_mem {op : AluOp} {f : AddrForm} (h : modifyMemory op f s = .next t) :
    t.mem = s.mem.write (effectiveAddress f s) (alu op 0 (s.mem.read (effectiveAddress f s))) := by
  cases (modifyMemory_next op f s).symm.trans h
  rfl

theorem execJsrAbs_mem {w : Addr} (h : execJsrAbs w s = .next t) :
    t.mem = s.mem.writeAll (storedByte (.jsrAbs w) s) (storedAddresses (.jsrAbs w) s) := by
  rw [storedAddresses_jsr]
  cases h
  cases s.params.jsrPushesReturn with
  | true =>
    simp only [if_true, Memory.writeAll, List.foldl, storedByte_jsr_high, storedByte_jsr_low]
    rfl
  | false => rfl

/-- R38: an instruction writes its `storedByte` at each of its `storedAddresses`, and writes nothing else. -/
theorem exec_mem {i : Instr} (h : exec i s = .next t) :
    t.mem = s.mem.writeAll (storedByte i s) (storedAddresses i s) := by
  cases i with
  | staZp | staZpX | staAbs | staAbsX | staAbsY | staIndX | staIndY
  | stxZp | stxZpY | stxAbs | styZp | styZpX | styAbs => exact storeRegister_mem h
  | incZp | incZpX | incAbs | incAbsX =>
    rw [modifyMemory_mem h, alu_inc_eq_ofNat]
    rfl
  | decZp | decZpX | decAbs | decAbsX =>
    rw [modifyMemory_mem h, alu_dec_eq_ofNat]
    rfl
  | pha | php =>
    cases h
    rfl
  | jsrAbs w => exact execJsrAbs_mem h
  | _ => exact exec_mem_of_notMem_storing h (by simp [Instr.mnemonic, storingMnemonics])

end

/-- Settles O38: an instruction's memory is the old one with its stored bytes written. -/
theorem memoryChangesOnlyAtStoredAddresses : Obligations.MemoryChangesOnlyAtStoredAddresses := by
  intro i s t h
  have hlength := storedAddresses_length i s
  refine ⟨fun k hk => ?_, by omega, fun htwo => ?_, exec_mem_of_notMem_storing h⟩
  · rw [exec_mem h, Memory.read_writeAll, if_neg hk]
  · exact (hlength.resolve_left (by omega)).2

end Sys2Proof.Machine
end

section
/-! PROOFS. The fetch by the opcode byte at PC (R54, R57, R70), and a store seen by it (R44). -/

namespace Sys2Proof

/-! ## Decoding a legal pair -/

/-- Every row of the opcode map is a legal pair (R57). -/
theorem legalPair_of_decodeOpcode {op : Byte} {mn : Mnemonic} {m : Mode} (h : decodeOpcode op = some (mn, m)) :
    legalPair mn m = true := by
  have hrows : ∀ row ∈ opcodeTable, legalPair row.mnemonic row.mode = true := by decide
  obtain ⟨row, hfind, hrow⟩ := Option.map_eq_some_iff.mp h
  cases hrow
  exact hrows row (List.mem_of_find?_eq_some hfind)

/-- A legal mode has a rule that gives its operand (R52, R96). -/
theorem operandOf_of_legalPair {mn : Mnemonic} {m : Mode} (h : legalPair mn m = true) (b1 b2 : Byte) :
    ∃ o : Operand, operandOf m b1 b2 = some o := by
  have hmodes : ∀ m ∈ legalModes mn, m.operandBytes.isSome = true := by cases mn <;> decide
  have hbytes : m.operandBytes.isSome = true := hmodes m (List.contains_iff_mem.mp h)
  have hsame : (operandOf m b1 b2).isSome = m.operandBytes.isSome := by cases m <;> rfl
  exact Option.isSome_iff_exists.mp (hsame.trans hbytes)

/-- A legal pair decodes to the instruction of that mnemonic and mode with the operand the two bytes give (R57). -/
theorem decodePair_of_legalPair {mn : Mnemonic} {m : Mode} (h : legalPair mn m = true) (op b1 b2 : Byte) :
    ∃ j : Instr, j.mnemonic = mn ∧ j.mode = m ∧ operandOf m b1 b2 = some j.operand ∧
      decodePair op mn m b1 b2 = .ok j := by
  obtain ⟨o, ho⟩ := operandOf_of_legalPair h b1 b2
  have hmode := operandOf_mode ho
  obtain ⟨j, hj⟩ := Option.isSome_iff_exists.mp ((assemble_isSome mn o).trans (hmode.symm ▸ h))
  obtain ⟨hmn, hoperand⟩ := assemble_eq_some hj
  refine ⟨j, hmn, ?_, hoperand.symm ▸ ho, by simp [decodePair, ho, hj]⟩
  rw [Instr.mode, hoperand, hmode]

end Sys2Proof

namespace Sys2Proof.Machine

/-! ## The fetch -/

theorem fetchInstr_of_unassigned {s : State} (h : decodeOpcode (s.mem.read s.pc) = none) :
    fetchInstr s = .trap (.decodeFault (s.mem.read s.pc) s.pc) := by
  simp only [fetchInstr, decodeBytes, h, handOver]

theorem fetchInstr_of_assigned {s : State} {mn : Mnemonic} {m : Mode}
    (h : decodeOpcode (s.mem.read s.pc) = some (mn, m)) :
    ∃ j : Instr, j.mnemonic = mn ∧ j.mode = m ∧
      operandOf m (s.mem.read (s.pc + 1)) (s.mem.read (s.pc + 2)) = some j.operand ∧ fetchInstr s = .instr j := by
  obtain ⟨j, hmn, hmode, hoperand, hdecode⟩ := decodePair_of_legalPair (legalPair_of_decodeOpcode h)
    (s.mem.read s.pc) (s.mem.read (s.pc + 1)) (s.mem.read (s.pc + 2))
  exact ⟨j, hmn, hmode, hoperand, by simp only [fetchInstr, decodeBytes, h, hdecode, handOver]⟩

/-! ## After a store -/

/-- An instruction that stores leaves the run state: BRK stores nothing. -/
theorem exec_runState_of_stores {i : Instr} {s t : State} {k : Addr} (h : exec i s = .next t)
    (hk : k ∈ storedAddresses i s) : t.runState = s.runState := by
  have hbrk : i.mnemonic ≠ .brk := by
    intro hmn
    rw [storedAddresses_eq_nil (by rw [hmn]; decide)] at hk
    exact absurd hk List.not_mem_nil
  obtain ⟨-, -, hrun, -⟩ := controlStateChangesOnlyByBrk i s t h
  exact hrun hbrk

/-- Settles O56: the machine is RUNNING still, and the fetch reads the stored byte at PC. -/
theorem storeIsSeenByTheNextFetch : Obligations.StoreIsSeenByTheNextFetch := by
  intro i s t k hrunning h hk
  have hstep : step t = perform (fetchInstr t) t := step_running ((exec_runState_of_stores h hk).trans hrunning)
  have hbyte : t.mem.read k = storedByte i s k := by rw [exec_mem h, Memory.read_writeAll, if_pos hk]
  refine ⟨hbyte, fun hpc hnone => ?_, fun hpc mn m hsome => ?_⟩
  · subst hpc
    rw [← hbyte] at hnone ⊢
    rw [hstep, fetchInstr_of_unassigned hnone]
    rfl
  · subst hpc
    rw [← hbyte] at hsome
    obtain ⟨j, hmn, hmode, hoperand, hfetch⟩ := fetchInstr_of_assigned hsome
    exact ⟨j, hmn, hmode, hoperand, by rw [hstep, hfetch]; rfl⟩

end Sys2Proof.Machine
end

section
/-! PROOFS. The opcode byte decides the pair (R51). -/

namespace Sys2Proof.Machine

/-- A fetch that gives an instruction read an assigned opcode byte, whose pair is the instruction's own. -/
theorem decodeOpcode_of_fetchInstr {s : State} {i : Instr} (h : fetchInstr s = .instr i) :
    decodeOpcode (s.mem.read s.pc) = some (i.mnemonic, i.mode) := by
  cases hop : decodeOpcode (s.mem.read s.pc) with
  | none => simp [fetchInstr_of_unassigned hop] at h
  | some pair =>
    obtain ⟨j, hmn, hmode, -, hfetch⟩ := fetchInstr_of_assigned hop
    cases h.symm.trans hfetch
    rw [hmn, hmode]

/-- Settles O5: the byte fixes the pair, an assigned pair is fetched as an instruction, and the length is the mode's. -/
theorem opcodeByteAloneDecides : Obligations.OpcodeByteAloneDecides := by
  intro s s' i hbyte hfetch
  have hop : decodeOpcode (s'.mem.read s'.pc) = some (i.mnemonic, i.mode) := hbyte ▸ decodeOpcode_of_fetchInstr hfetch
  obtain ⟨j, hmn, hmode, -, hfetch'⟩ := fetchInstr_of_assigned hop
  exact ⟨j, hfetch', hmn, hmode, by simp only [Instr.length, hmode]⟩

end Sys2Proof.Machine
end

section
/-! PROOFS. The step: total, and for a RUNNING machine the effect of the instruction its bytes decode to
(R70, R72, R74, R77). -/

namespace Sys2Proof

/-- Three bytes that the list decoder reads an instruction from decode to that instruction (R51). -/
theorem decodeBytes_of_decode {op b1 b2 : Byte} {i : Instr} {rest : List Byte}
    (h : decode [op, b1, b2] = .ok i rest) : decodeBytes op b1 b2 = .ok i := by
  simp only [decode, List.getD_cons_zero, List.getD_cons_succ] at h
  cases hdecode : decodeBytes op b1 b2 with
  | ok j =>
    simp only [hdecode] at h
    split at h <;> cases h
    rfl
  | invalidOpcode | unsupportedPair => simp [hdecode] at h

end Sys2Proof

namespace Sys2Proof.Machine

/-- Settles O43: R72's HALTED row. -/
theorem haltedStepChangesNothing : Obligations.HaltedStepChangesNothing := fun _ => step_halted

theorem exec_completes (i : Instr) (s : State) : ∃ t : State, exec i s = .next t := by
  by_cases hphp : i = .php
  · exact ⟨_, hphp ▸ exec_php s⟩
  · obtain ⟨t, cmd, -, hexec⟩ := exec_does i hphp s
    exact ⟨_, hexec s.flags⟩

/-- Settles O47: HALTED a step answers the same state, and RUNNING both an effect and a fault entry are next states. -/
theorem stepIsTotal : Obligations.StepIsTotal := by
  intro s
  obtain hrun | hrun := s.halted_or_running
  · exact ⟨s, step_halted hrun⟩
  · rw [step_running hrun]
    cases fetchInstr s with
    | instr i => exact exec_completes i s
    | trap record => exact ⟨raiseFault record s, rfl⟩

/-- A RUNNING step is the effect of the instruction that the bytes at PC decode to, and nothing around it (R70, R74). -/
theorem step_of_decodeBytes {s : State} {i : Instr} (hrun : s.runState = .running)
    (h : decodeBytes (s.mem.read s.pc) (s.mem.read (s.pc + 1)) (s.mem.read (s.pc + 2)) = .ok i) :
    step s = exec i s := by
  rw [step_running hrun, fetchInstr, h]
  rfl

/-- Settles O42: the list decoder on the three bytes at PC agrees with the fetch. -/
theorem stepRunsTheDecodedInstruction : Obligations.StepRunsTheDecodedInstruction :=
  fun _ _ _ hrun h => step_of_decodeBytes hrun (decodeBytes_of_decode h)

/-! ## The executor's interface -/

/-- Settles O46: a legal pair decodes, so the interface hands over an instruction and no fault. -/
theorem legalPairExecutesItsInstruction : Obligations.LegalPairExecutesItsInstruction := by
  intro op mn m s hlegal
  obtain ⟨i, hmn, hmode, hoperand, hdecode⟩ :=
    decodePair_of_legalPair hlegal op (s.mem.read (s.pc + 1)) (s.mem.read (s.pc + 2))
  refine ⟨i, hmn, hmode, hoperand, ?_⟩
  rw [executePair, fetchPair, hdecode]
  rfl

/-! ## An instruction placed at PC -/

/-- The three bytes of a placed word lie at the address and the two after it, each at its own (R98). -/
theorem placeTableWord_read (m : Memory) (pc0 : Addr) (nbits w : Nat) :
    (placeTableWord m pc0 nbits w).read pc0 = tableByte nbits w 0 ∧
    (placeTableWord m pc0 nbits w).read (pc0 + 1) = tableByte nbits w 1 ∧
    (placeTableWord m pc0 nbits w).read (pc0 + 2) = tableByte nbits w 2 := by
  have h01 : pc0 ≠ pc0 + 1 := by bv_omega
  have h02 : pc0 ≠ pc0 + 2 := by bv_omega
  have h12 : pc0 + 1 ≠ pc0 + 2 := by bv_omega
  simp only [placeTableWord, Memory.read_write, if_neg h01, if_neg h02, if_neg h12, if_true, and_self]

theorem decodeTableWord_eq_some {nbits w : Nat} {i : Instr} (h : decodeTableWord nbits w = some i) :
    decodeBytes (tableByte nbits w 0) (tableByte nbits w 1) (tableByte nbits w 2) = .ok i := by
  unfold decodeTableWord at h
  split at h
  next hdecode =>
    cases h
    exact hdecode
  next => cases h

/-- Settles O58: the placed machine is RUNNING and its fetch reads the placed bytes, wrapping as they were placed. -/
theorem placedInstructionRunsNext : Obligations.PlacedInstructionRunsNext := by
  intro s nbits w i h
  obtain ⟨h0, h1, h2⟩ := placeTableWord_read s.mem s.pc nbits w
  refine step_of_decodeBytes (State.withFetchWord_runState s nbits w) ?_
  rw [State.withFetchWord_mem, State.withFetchWord_pc, h0, h1, h2]
  exact decodeTableWord_eq_some h

end Sys2Proof.Machine
end

section
/-! PROOFS. Where an instruction leaves PC, and how a RUNNING machine comes to halt (R75, R189, R210). -/

namespace Sys2Proof

/-- The mode of an operand has a number of operand bytes, at most two (R52): the tags without a rule have no operand. -/
theorem Operand.exists_operandBytes (o : Operand) : ∃ n : Nat, o.mode.operandBytes = some n ∧ n ≤ 2 := by
  rcases o with _ | _ | f
  · exact ⟨0, rfl, by decide⟩
  · exact ⟨1, rfl, by decide⟩
  · cases f with
    | zeroPage | zeroPageX | zeroPageY | xIndexedIndirect | indirectYIndexed => exact ⟨1, rfl, by decide⟩
    | absolute | absoluteX | absoluteY => exact ⟨2, rfl, by decide⟩

theorem Instr.eq_brk_of_mnemonic {i : Instr} (h : i.mnemonic = .brk) : i = .brk := by
  cases i <;> cases h
  rfl

end Sys2Proof

namespace Sys2Proof.Machine

/-- Every instruction but JSR and BRK ends in the executor's last phase, over its own number of operand bytes (R74). -/
theorem exec_eq_retire {i : Instr} (hjsr : i.mnemonic ≠ .jsr) (hbrk : i.mnemonic ≠ .brk) (s : State) :
    ∃ t : State, exec i s = retire s (i.mode.operandBytes.getD 0) t := by
  cases i with
  | jsrAbs w => exact absurd rfl hjsr
  | brk => exact absurd rfl hbrk
  | _ => exact ⟨_, rfl⟩

/-- Settles O34: the last phase moves PC past the opcode and the mode's operand bytes, wrapping. -/
theorem pcAdvancesByTheLength : Obligations.PcAdvancesByTheLength := by
  intro i s t hjsr hbrk h
  obtain ⟨n, hbytes, hle⟩ := i.operand.exists_operandBytes
  have hmode : i.mode.operandBytes = some n := hbytes
  obtain ⟨u, hretire⟩ := exec_eq_retire hjsr hbrk s
  rw [hretire, hmode, Option.getD_some, retire_next] at h
  refine ⟨n, hmode, hle, ?_⟩
  rw [h, BitVec.toNat_add, BitVec.toNat_ofNat, Nat.add_mod_mod]

/-- No bytes reach the addressing fault: the fetch traps only at an unassigned opcode byte (R181, D22). -/
theorem decodeFault_of_fetchInstr_trap {s : State} {record : FaultRecord} (h : fetchInstr s = .trap record) :
    record = .decodeFault (s.mem.read s.pc) s.pc := by
  cases hop : decodeOpcode (s.mem.read s.pc) with
  | none =>
    cases h.symm.trans (fetchInstr_of_unassigned hop)
    rfl
  | some pair =>
    obtain ⟨j, -, -, -, hfetch⟩ := fetchInstr_of_assigned hop
    cases h.symm.trans hfetch

/-- Only BRK takes a RUNNING machine to HALTED by its effect (R161). -/
theorem eq_brk_of_exec_halts {i : Instr} {s t : State} (hrun : s.runState = .running) (h : exec i s = .next t)
    (hhalt : t.runState = .halted) : i = .brk := by
  obtain ⟨-, -, hkept, -⟩ := controlStateChangesOnlyByBrk i s t h
  by_contra hne
  have hsame := hkept (fun hmn => hne (Instr.eq_brk_of_mnemonic hmn))
  rw [hhalt, hrun] at hsame
  cases hsame

/-- Settles O49: an effect that halts is the BRK halt, which keeps the record; a fault entry sets it and keeps PC. -/
theorem runningStepHaltsOnlyByBrkOrFault : Obligations.RunningStepHaltsOnlyByBrkOrFault := by
  intro s t hrun hsound hstep hhalt
  obtain ⟨hhalted, -⟩ | ⟨-, i, hfetch, hexec⟩ | ⟨-, record, hfetch, rfl⟩ := step_cases hstep
  · rw [hrun] at hhalted
    cases hhalted
  · cases eq_brk_of_exec_halts hrun hexec hhalt
    cases hexec
    exact .inl ⟨hfetch, ⟨rfl, hsound⟩, rfl, rfl⟩
  · cases decodeFault_of_fetchInstr_trap hfetch
    exact .inr ⟨⟨rfl, by simp⟩, rfl, rfl⟩

end Sys2Proof.Machine
end

section
/-! PROOFS. The run (R71, R72): where it ends, it ends HALTED, and more fuel or a further step changes nothing. -/

namespace Sys2Proof.Machine

/-- A run of a RUNNING machine does not end without fuel (D25). -/
theorem runToHalt_zero_of_running {s : State} (h : s.runState = .running) : runToHalt 0 s = none := by
  simp [runToHalt, h]

/-- With fuel, it takes one step and goes on from there (R71). -/
theorem runToHalt_succ_of_running {s t : State} (h : s.runState = .running) (hstep : step s = .next t) (fuel : Nat) :
    runToHalt (fuel + 1) s = runToHalt fuel t := by
  simp [runToHalt, h, hstep]

/-- A run that ends has reached a HALTED state, which every larger fuel reaches too. -/
theorem runToHalt_eq_some {fuel : Nat} {s t : State} (h : runToHalt fuel s = some t) (more : Nat) :
    t.runState = .halted ∧ runToHalt (fuel + more) s = some t := by
  induction fuel generalizing s with
  | zero =>
    obtain hrun | hrun := s.halted_or_running
    · cases (runToHalt_halted hrun 0).symm.trans h
      exact ⟨hrun, runToHalt_halted hrun _⟩
    · cases (runToHalt_zero_of_running hrun).symm.trans h
  | succ fuel ih =>
    obtain hrun | hrun := s.halted_or_running
    · cases (runToHalt_halted hrun _).symm.trans h
      exact ⟨hrun, runToHalt_halted hrun _⟩
    · obtain ⟨u, hstep⟩ := stepIsTotal s
      rw [runToHalt_succ_of_running hrun hstep] at h
      rw [Nat.add_right_comm, runToHalt_succ_of_running hrun hstep]
      exact ih h

/-- Settles O57: by induction on the fuel; the end state is HALTED, so a further step does nothing. -/
theorem runEndsHaltedAndStaysSo : Obligations.RunEndsHaltedAndStaysSo := by
  intro fuel more s t h
  obtain ⟨hhalt, hmore⟩ := runToHalt_eq_some h more
  exact ⟨hhalt, hmore, step_halted hhalt⟩

end Sys2Proof.Machine
end

section
/-! PROOFS. The resolver (R85 to R99): what its additions to a byte and to a word come to, the pointer word in page zero,
and the row of the table for each mode. -/

namespace Sys2Proof

/-! ## Index additions -/

theorem zext16_eq_ofNat (b : Byte) : zext16 b = BitVec.ofNat 16 b.toNat := by
  rw [← zext16_toNat, BitVec.ofNat_toNat, BitVec.setWidth_eq]

/-- An index added to a byte wraps before the sum is extended, so the carry out of bit 7 is lost (R98). -/
theorem zext16_add_toNat (b index : Byte) : (zext16 (b + index)).toNat = (b.toNat + index.toNat) % 256 := by
  rw [zext16_toNat, BitVec.toNat_add]

/-- An index added to a word carries into the high byte and wraps at 16 bits (R98). -/
theorem add_zext16_toNat (w : Addr) (index : Byte) : (w + zext16 index).toNat = (w.toNat + index.toNat) % 65536 := by
  rw [BitVec.toNat_add, zext16_toNat]

end Sys2Proof

namespace Sys2Proof.Machine

/-! ## The effective address of each form -/

/-- Settles O11: the sum is a byte before it becomes an address. -/
theorem zeroPageFormsStayInPageZero : Obligations.ZeroPageFormsStayInPageZero :=
  fun b s => ⟨⟨zext16_toNat b, rfl⟩, ⟨zext16_add_toNat b s.x, rfl⟩, ⟨zext16_add_toNat b s.y, rfl⟩⟩

/-- Settles O12: the index is extended to a word before it is added. -/
theorem absoluteFormsWrapAtSixteenBits : Obligations.AbsoluteFormsWrapAtSixteenBits :=
  fun w s => ⟨⟨rfl, rfl⟩, ⟨add_zext16_toNat w s.x, rfl⟩, ⟨add_zext16_toNat w s.y, rfl⟩⟩

/-- A pointer word in page zero. The address of its high byte does not wrap to 0x0000: from 0xFF it is 0x0100 (D9). -/
theorem Memory.readWord_zext16_toNat (m : Memory) (p : Byte) :
    (m.readWord (zext16 p)).toNat =
      (m.read (BitVec.ofNat 16 p.toNat)).toNat + 256 * (m.read (BitVec.ofNat 16 (p.toNat + 1))).toNat := by
  rw [Memory.readWord_toNat, zext16_eq_ofNat, BitVec.ofNat_add, BitVec.ofNat_eq_ofNat]

/-- Settles O13: X moves the pointer within page zero, and Y is added to the word that the pointer names. -/
theorem indirectFormsReadAPointer : Obligations.IndirectFormsReadAPointer := by
  intro b s
  constructor
  · rw [← BitVec.toNat_add]
    exact s.mem.readWord_zext16_toNat (b + s.x)
  · rw [← Memory.readWord_zext16_toNat]
    exact add_zext16_toNat (s.mem.readWord (zext16 b)) s.y

/-! ## The table of the resolver -/

/-- A mode with an address form has its operand bytes and its effective address for answer (R85). -/
theorem resolveAt_of_memory {m : Mode} {pc0 : Addr} {s : State} (f : AddrForm)
    (h : operandOf m (s.mem.read (pc0 + 1)) (s.mem.read (pc0 + 2)) = some (.source (.memory f))) :
    resolveAt m pc0 s = some (formBytes f, .addr (effectiveAddress f s)) := by
  rw [resolveAt, h]
  rfl

/-- Settles O14: the first two rows name no address; each of the others is the row of its address form, over the byte
after the opcode or the word there. -/
theorem resolverFollowsItsTable : Obligations.ResolverFollowsItsTable := by
  intro pc0 s
  have hnext : pc0 + 1 + 1 = pc0 + 2 := BitVec.add_assoc pc0 1 1
  have hword : s.mem.readWord (pc0 + 1) = wordOf (s.mem.read (pc0 + 2)) (s.mem.read (pc0 + 1)) := by
    rw [Memory.readWord, hnext]
  rw [hword]
  exact ⟨rfl, rfl,
    resolveAt_of_memory (.zeroPage _) rfl,
    resolveAt_of_memory (.zeroPageX _) rfl,
    resolveAt_of_memory (.zeroPageY _) rfl,
    resolveAt_of_memory (.absolute _) rfl,
    resolveAt_of_memory (.absoluteX _) rfl,
    resolveAt_of_memory (.absoluteY _) rfl,
    resolveAt_of_memory (.xIndexedIndirect _) rfl,
    resolveAt_of_memory (.indirectYIndexed _) rfl⟩

end Sys2Proof.Machine
end

section
/-! PROOFS. The ALU (R100) by number and by bit, SetZN and BitFlags (R101, R102) by the range of the value, and what an
instruction does with them: only BIT and PLP set Z or N otherwise (R101), and the six increments and decrements keep C
and V (R106). -/

namespace Sys2Proof.Machine

/-! ## The ALU -/

/-- Settles O15: adding and subtracting one wrap at 256, and the other operations act on each bit alone. -/
theorem aluComputesItsTable : Obligations.AluComputesItsTable := by
  intro a b
  refine ⟨rfl, ?_, ?_, fun _ => BitVec.getLsbD_and, fun _ => BitVec.getLsbD_or, fun _ => BitVec.getLsbD_xor⟩
  · rw [alu_inc_eq_ofNat, BitVec.toNat_ofNat]
  · rw [alu_dec_eq_ofNat, BitVec.toNat_ofNat]

/-! ## Bits 6 and 7 of a byte by its value -/

theorem getLsbD_iff_div_mod (v : Byte) (k : Nat) : v.getLsbD k = true ↔ v.toNat / 2 ^ k % 2 = 1 := by
  rw [← BitVec.testBit_toNat, Nat.testBit_eq_decide_div_mod_eq, decide_eq_true_iff]

theorem getLsbD_six_iff (v : Byte) : v.getLsbD 6 = true ↔ 64 ≤ v.toNat % 128 := by
  rw [getLsbD_iff_div_mod]
  omega

theorem getLsbD_seven_iff (v : Byte) : v.getLsbD 7 = true ↔ 128 ≤ v.toNat := by
  have hlt := v.isLt
  rw [getLsbD_iff_div_mod]
  omega

/-! ## The flag commands -/

/-- Settles O17: Z is a test of `a & v`, and V and N are bits of the operand. -/
theorem bitFlagsComeFromTheOperand : Obligations.BitFlagsComeFromTheOperand :=
  fun _ v _ => ⟨beq_iff_eq, getLsbD_six_iff v, getLsbD_seven_iff v, rfl⟩

theorem setZN_z_iff (v : Byte) (f : Flags) : (setZN v f).z = true ↔ v.toNat = 0 := by
  rw [setZN_z, beq_iff_eq, BitVec.toNat_eq]
  rfl

theorem setZN_n_iff (v : Byte) (f : Flags) : (setZN v f).n = true ↔ 128 ≤ v.toNat := getLsbD_seven_iff v

/-- A command that changes Z or N is SetZN of a value, where it is neither BIT's nor PLP's. -/
theorem Effect.flagUpdate_eq_setZN {s t : State} {mn : Mnemonic} {cmd : FlagCommand} (h : Effect s mn t cmd)
    (hbit : mn ≠ .bit) (hplp : mn ≠ .plp) {f : Flags}
    (hchange : (flagUpdate cmd f).z ≠ f.z ∨ (flagUpdate cmd f).n ≠ f.n) :
    ∃ r : Byte, flagUpdate cmd f = setZN r f := by
  cases h with
  | result _ v | modify _ v | pullA v => exact ⟨v, rfl⟩
  | bitTest => exact absurd rfl hbit
  | pullFlags => exact absurd rfl hplp
  | store | push | setSp | jump | call => simp at hchange
  | setOne name => cases name <;> simp at hchange
  | halt => simp at hchange

/-- Settles O16: by the value Z is the test for zero and N the test for 128 and above, which the ranges decide; the last
clause is read off the effect of the instruction. -/
theorem setZNHasThreeCases : Obligations.SetZNHasThreeCases := by
  intro v f
  simp only [← Bool.not_eq_true, setZN_z_iff, setZN_n_iff]
  refine ⟨by omega, by omega, by omega, rfl, by omega, ?_⟩
  intro i s u h hbit hplp
  obtain ⟨t, cmd, heffect, rfl⟩ := exec_effect h
  rw [State.command_flags, heffect.flags_eq]
  exact heffect.flagUpdate_eq_setZN hbit hplp

/-! ## Increments and decrements -/

/-- Settles O35: none of the six stands in the rows of C and V in the table of R17. -/
theorem incDecLeaveCarryAndOverflow : Obligations.IncDecLeaveCarryAndOverflow := by
  intro i s t hmn h
  obtain ⟨hc, -, -, -, hv, -⟩ := flagsChangeOnlyAsTheirTableSays i s t h
  have hrows : ∀ mn ∈ [Mnemonic.inc, .dec, .inx, .iny, .dex, .dey],
      mn ∉ [Mnemonic.clc, .sec, .plp] ∧ mn ∉ [Mnemonic.clv, .bit, .plp] := by decide
  obtain ⟨hnotC, hnotV⟩ := hrows i.mnemonic hmn
  exact ⟨not_ne_iff.mp (mt hc hnotC), not_ne_iff.mp (mt hv hnotV)⟩

end Sys2Proof.Machine
end

section
/-! PROOFS. The loads and stores (R110 to R115): the operation each of their forms stands for, and the whole next state
it answers. -/

namespace Sys2Proof.Machine

/-! ## The length of an instruction with an operand -/

/-- The bytes the meanings move PC by are those the mode has (R52, R85). -/
theorem operandBytes_of_source (src : Source) : (Operand.source src).mode.operandBytes = some (sourceBytes src) := by
  cases src with
  | immediate => rfl
  | memory f => cases f <;> rfl

theorem lengthOf_of_source {i : Instr} {src : Source} (hop : i.operand = .source src) :
    lengthOf i = BitVec.ofNat 16 (1 + sourceBytes src) := by
  rw [lengthOf, Instr.length, Instr.mode, hop, operandBytes_of_source, Option.getD_some]

/-! ## The flags of a result -/

/-- Z and N by the bits of the result are Z and N by its range (R101). -/
theorem setZN_eq_znFrom (v : Byte) (f : Flags) : setZN v f = znFrom v f := by
  have hn : v.getLsbD 7 = decide (128 ≤ v.toNat) := by
    rw [Bool.eq_iff_iff, getLsbD_seven_iff, decide_eq_true_iff]
  rw [setZN, znFrom, hn]
  rfl

/-! ## The loads -/

/-- The register a load fills. -/
def loadTarget : Mnemonic → Option Reg
  | .lda => some .a
  | .ldx => some .x
  | .ldy => some .y
  | _ => none

theorem exec_eq_loadRegister {i : Instr} {r : Reg} {src : Source} (hreg : loadTarget i.mnemonic = some r)
    (hop : i.operand = .source src) : exec i = loadRegister r src := by
  cases i with
  | ldaImm | ldaZp | ldaZpX | ldaAbs | ldaAbsX | ldaAbsY | ldaIndX | ldaIndY
  | ldxImm | ldxZp | ldxZpY | ldxAbs | ldxAbsY | ldyImm | ldyZp | ldyZpX | ldyAbs | ldyAbsX =>
    cases hreg
    cases hop
    rfl
  | _ => cases hreg

theorem exec_load {i : Instr} {r : Reg} {src : Source} (hreg : loadTarget i.mnemonic = some r)
    (hop : i.operand = .source src) (s : State) :
    exec i s = .next { s.setReg r (readOperand src s) with
      flags := znFrom (readOperand src s) s.flags, pc := s.pc + lengthOf i } := by
  rw [exec_eq_loadRegister hreg hop, loadRegister_next, setZN_eq_znFrom, lengthOf_of_source hop]

/-- Settles O20: each clause is the load of one register. -/
theorem loadsSetRegisterAndZN : Obligations.LoadsSetRegisterAndZN := by
  intro i src s hop
  exact ⟨fun hlda => exec_load (congrArg loadTarget hlda) hop s,
    fun hldx => exec_load (congrArg loadTarget hldx) hop s,
    fun hldy => exec_load (congrArg loadTarget hldy) hop s⟩

/-! ## The stores -/

/-- The register a store writes to memory. -/
def storeSource : Mnemonic → Option Reg
  | .sta => some .a
  | .stx => some .x
  | .sty => some .y
  | _ => none

theorem exec_eq_storeRegister {i : Instr} {r : Reg} {f : AddrForm} (hreg : storeSource i.mnemonic = some r)
    (hop : i.operand = .source (.memory f)) : exec i = storeRegister r f := by
  cases i with
  | staZp | staZpX | staAbs | staAbsX | staAbsY | staIndX | staIndY
  | stxZp | stxZpY | stxAbs | styZp | styZpX | styAbs =>
    cases hreg
    cases hop
    rfl
  | _ => cases hreg

theorem exec_store {i : Instr} {r : Reg} {f : AddrForm} (hreg : storeSource i.mnemonic = some r)
    (hop : i.operand = .source (.memory f)) (s : State) :
    exec i s = .next { s with
      mem := s.mem.write (effectiveAddress f s) (s.getReg r), pc := s.pc + lengthOf i } := by
  rw [exec_eq_storeRegister hreg hop, storeRegister_next, lengthOf_of_source hop, sourceBytes]

/-- Settles O21: the memory is the old one with the register written at the effective address. -/
theorem storesWriteOneByte : Obligations.StoresWriteOneByte := by
  intro i f s hop hmn
  have hsources : ∀ mn ∈ [Mnemonic.sta, .stx, .sty], (storeSource mn).isSome = true := by decide
  obtain ⟨r, hreg⟩ := Option.isSome_iff_exists.mp (hsources i.mnemonic hmn)
  have hbyte : ∀ r' : Reg, storeSource i.mnemonic = some r' →
      (s.mem.write (effectiveAddress f s) (s.getReg r)).read (effectiveAddress f s) = s.getReg r' := by
    intro r' hreg'
    cases hreg.symm.trans hreg'
    exact s.mem.read_write_same _ _
  exact ⟨_, exec_store hreg hop s, rfl,
    fun hsta => hbyte .a (congrArg storeSource hsta),
    fun hstx => hbyte .x (congrArg storeSource hstx),
    fun hsty => hbyte .y (congrArg storeSource hsty),
    fun k hk => s.mem.read_write_other _ k _ hk⟩

end Sys2Proof.Machine
end

section
/-! PROOFS. The register transfers (R120 to R125): the whole next state of a transfer into a general register, and of
TXS, which is none of those. -/

namespace Sys2Proof.Machine

theorem transferTo_eq_znFrom (r : Reg) (v : Byte) (s : State) :
    transferTo r v s = .next { s.setReg r v with flags := znFrom v s.flags, pc := s.pc + 1 } := by
  rw [transferTo_next, setZN_eq_znFrom]

/-- Settles O22: the first five are a transfer into X, Y or A of the register they read; TXS writes SP and keeps the
flags. -/
theorem transfersCopyTheirSource : Obligations.TransfersCopyTheirSource := by
  intro s
  have htxs : exec .txs s = .next { s with sp := s.x, pc := s.pc + 1 } := rfl
  exact ⟨transferTo_eq_znFrom .x s.a s, transferTo_eq_znFrom .y s.a s, transferTo_eq_znFrom .a s.x s,
    transferTo_eq_znFrom .a s.y s, transferTo_eq_znFrom .x s.sp s, htxs⟩

end Sys2Proof.Machine
end

section
/-! PROOFS. The stack (R130 to R135): the byte a push leaves at each address and the byte a pull reads, both by numeric
address, and the whole next state of the four stack instructions. -/

namespace Sys2Proof.Machine

/-! ## The stack primitives -/

theorem stackAddr_eq_ofNat (sp : Byte) : stackAddr sp = BitVec.ofNat 16 (256 + sp.toNat) := by
  rw [← stackAddr_toNat, BitVec.ofNat_toNat, BitVec.setWidth_eq]

theorem eq_stackAddr_iff (k : Addr) (sp : Byte) : k = stackAddr sp ↔ k.toNat = 256 + sp.toNat := by
  rw [← BitVec.toNat_inj, stackAddr_toNat]

/-- Settles O23: SP wraps as a byte before it becomes an address, which is 256 plus it and so lies in the stack page. -/
theorem stackPrimitivesWrapInTheStackPage : Obligations.StackPrimitivesWrapInTheStackPage := by
  intro s v
  have hpush : (s.sp - 1).toNat = (s.sp.toNat + 255) % 256 := by bv_omega
  have hpull : (s.sp + 1).toNat = (s.sp.toNat + 1) % 256 := BitVec.toNat_add s.sp 1
  refine ⟨fun k => ?_, hpush, rfl, ?_, hpull, rfl⟩
  · rw [State.push_mem, Memory.read_write]
    simp only [eq_stackAddr_iff]
  · rw [State.pulledByte, stackAddr_eq_ofNat, hpull]

/-! ## The pushes -/

/-- PHA pushes A and moves PC by one (R132). -/
theorem exec_pha (s : State) : exec .pha s = .next { s.push s.a with pc := s.pc + 1 } := rfl

/-- Settles O24: each of the two is one push, of A or of the status byte. -/
theorem pushInstructionsWriteTheStack : Obligations.PushInstructionsWriteTheStack := by
  intro s
  exact ⟨⟨_, exec_pha s, rfl, s.mem.read_write_same _ _, fun k hk => s.mem.read_write_other _ k _ hk⟩,
    ⟨_, exec_php s, rfl, s.mem.read_write_same _ _, fun k hk => s.mem.read_write_other _ k _ hk⟩⟩

/-! ## The pulls -/

/-- PLA pulls A, sets Z and N from it, and moves PC by one (R134). -/
theorem exec_pla (s : State) : exec .pla s = .next { s.pulled with
    a := s.pulledByte, flags := setZN s.pulledByte s.flags, pc := s.pc + 1 } := rfl

/-- PLP pulls the seven flags and moves PC by one (R135). -/
theorem exec_plp (s : State) : exec .plp s = .next { s.pulled with
    flags := unpackP s.pulledByte, pc := s.pc + 1 } := rfl

/-- Unpacking reads seven bits of the byte, and bit 5 is none of them (R15). -/
theorem unpackP_xor_bit5 (b : Byte) : unpackP (b ^^^ 0x20) = unpackP b := by
  simp [unpackP]

/-- Settles O25: the byte pulled is the one at the incremented SP. -/
theorem pullInstructionsReadTheStack : Obligations.PullInstructionsReadTheStack := by
  rintro s _ rfl
  refine ⟨?_, exec_plp s, (unpackP_xor_bit5 _).symm⟩
  rw [exec_pla, setZN_eq_znFrom]
  rfl

end Sys2Proof.Machine
end

section
/-! PROOFS. Increment and decrement (R140 to R145): the operation each of their forms stands for, and the whole next
state it answers. -/

namespace Sys2Proof.Machine

/-! ## The memory forms -/

/-- The ALU operation of INC and DEC on memory. -/
def modifyOp : Mnemonic → Option AluOp
  | .inc => some .inc
  | .dec => some .dec
  | _ => none

theorem exec_eq_modifyMemory {i : Instr} {op : AluOp} {f : AddrForm} (hmod : modifyOp i.mnemonic = some op)
    (hop : i.operand = .source (.memory f)) : exec i = modifyMemory op f := by
  cases i with
  | incZp | incZpX | incAbs | incAbsX | decZp | decZpX | decAbs | decAbsX =>
    cases hmod
    cases hop
    rfl
  | _ => cases hmod

theorem exec_modify {i : Instr} {op : AluOp} {f : AddrForm} (hmod : modifyOp i.mnemonic = some op)
    (hop : i.operand = .source (.memory f)) (s : State) :
    exec i s = .next { s with
      mem := s.mem.write (effectiveAddress f s) (alu op 0 (s.mem.read (effectiveAddress f s))),
      flags := znFrom (alu op 0 (s.mem.read (effectiveAddress f s))) s.flags,
      pc := s.pc + lengthOf i } := by
  rw [exec_eq_modifyMemory hmod hop, modifyMemory_next, setZN_eq_znFrom, lengthOf_of_source hop, sourceBytes]

/-- Settles O26: the byte given by its value is the ALU's result, which goes to the address it was read from. -/
theorem incDecChangeOneByte : Obligations.IncDecChangeOneByte := by
  intro i f s v hop hv
  have hresult : ∃ op : AluOp, modifyOp i.mnemonic = some op ∧ v = alu op 0 (s.mem.read (effectiveAddress f s)) := by
    rcases hv with ⟨hinc, hv⟩ | ⟨hdec, hv⟩
    · exact ⟨.inc, congrArg modifyOp hinc, hv.trans (alu_inc_eq_ofNat 0 _).symm⟩
    · exact ⟨.dec, congrArg modifyOp hdec, hv.trans (alu_dec_eq_ofNat 0 _).symm⟩
  obtain ⟨op, hmod, rfl⟩ := hresult
  exact ⟨_, exec_modify hmod hop s, rfl, s.mem.read_write_same _ _, fun k hk => s.mem.read_write_other _ k _ hk⟩

/-! ## The register forms -/

theorem modifyRegister_eq_znFrom (op : AluOp) (r : Reg) (s : State) :
    modifyRegister op r s = .next { s.setReg r (alu op 0 (s.getReg r)) with
      flags := znFrom (alu op 0 (s.getReg r)) s.flags, pc := s.pc + 1 } := by
  rw [modifyRegister_next, setZN_eq_znFrom]

/-- Settles O27: each of the four is INC or DEC of the register it names (D7). -/
theorem incDecChangeOneRegister : Obligations.IncDecChangeOneRegister := by
  intro s
  exact ⟨modifyRegister_eq_znFrom .inc .x s, modifyRegister_eq_znFrom .inc .y s, modifyRegister_eq_znFrom .dec .x s,
    modifyRegister_eq_znFrom .dec .y s⟩

end Sys2Proof.Machine
end

section
/-! PROOFS. The decoder and the encoder (R50 to R57): the opcode map read both ways, operand bytes assembled and taken
apart, and the round trips that follow. -/

namespace Sys2Proof

/-! ## The opcode map -/

theorem mem_opcodeTable_of_decodeOpcode {op : Byte} {mn : Mnemonic} {m : Mode} (h : decodeOpcode op = some (mn, m)) :
    ⟨op, mn, m⟩ ∈ opcodeTable := by
  obtain ⟨row, hfind, hpair⟩ := Option.map_eq_some_iff.mp h
  have hbyte : row.opcode = op := beq_iff_eq.mp (List.find?_some (p := fun r : OpcodeRow => r.opcode == op) hfind)
  cases hpair
  cases hbyte
  exact List.mem_of_find?_eq_some hfind

/-- No two rows of the map have one pair, so the pair gives back the byte (R55, R57). -/
theorem opcodeTable_pairs_nodup : (opcodeTable.map fun row => (row.mnemonic, row.mode)).Nodup := by decide

theorem decodeOpcode_injective {op op' : Byte} {pair : Mnemonic × Mode} (h : decodeOpcode op = some pair)
    (h' : decodeOpcode op' = some pair) : op = op' := by
  have hrow := List.inj_on_of_nodup_map opcodeTable_pairs_nodup (mem_opcodeTable_of_decodeOpcode h)
    (mem_opcodeTable_of_decodeOpcode h') rfl
  exact congrArg OpcodeRow.opcode hrow

/-- Settles O4: the byte of a legal pair is that of the instruction it assembles to, and the map lists no pair twice. -/
theorem legalPairsHaveOneOpcode : Obligations.LegalPairsHaveOneOpcode := by
  refine ⟨fun mn m => ⟨fun hlegal => ?_, fun ⟨_, hop⟩ => legalPair_of_decodeOpcode hop⟩,
    fun _ _ _ => decodeOpcode_injective⟩
  obtain ⟨i, rfl, rfl, -⟩ := decodePair_of_legalPair hlegal 0 0 0
  exact ⟨i.opcode, decodeOpcode_opcode i⟩

theorem decodeOpcode_eq_none_iff (op : Byte) : decodeOpcode op = none ↔ op ∉ opcodeTable.map OpcodeRow.opcode := by
  simp [decodeOpcode]

/-- The listed bytes are, in rising order, the numbers below 256 that no row has for its byte (R56). -/
theorem unassignedBytes_eq_filter : Machine.unassignedBytes.map BitVec.toNat =
    (List.range 256).filter fun n => n ∉ opcodeTable.map fun row => row.opcode.toNat := by decide +kernel

theorem mem_unassignedBytes_iff (op : Byte) :
    op ∈ Machine.unassignedBytes ↔ op ∉ opcodeTable.map OpcodeRow.opcode := by
  have hinj : Function.Injective (BitVec.toNat : Byte → Nat) := fun _ _ => BitVec.eq_of_toNat_eq
  have hrows : (opcodeTable.map fun row => row.opcode.toNat) =
      (opcodeTable.map OpcodeRow.opcode).map BitVec.toNat := List.map_map.symm
  rw [← List.mem_map_of_injective hinj, unassignedBytes_eq_filter, hrows, List.mem_filter, List.mem_range,
    decide_eq_true_iff, List.mem_map_of_injective hinj]
  exact and_iff_right op.isLt

/-- Settles O3: a byte has no decoding when no row of the map has it, and those bytes are the listed ones. -/
theorem unassignedBytesAreTheListed : Obligations.UnassignedBytesAreTheListed :=
  fun op => (decodeOpcode_eq_none_iff op).trans (mem_unassignedBytes_iff op).symm

/-! ## The operand bytes -/

/-- The mode fixes how many operand bytes there are (R52). -/
theorem Operand.operandBytes_mode (o : Operand) : o.mode.operandBytes = some o.bytes.length := by
  rcases o with _ | _ | f
  · rfl
  · rfl
  · cases f <;> rfl

theorem encode_length (i : Instr) : (encode i).length = i.length := by
  rw [Instr.length, Instr.mode, Operand.operandBytes_mode, Option.getD_some, Nat.add_comm]
  rfl

/-- Operand assembly takes the operand from its own bytes, whatever bytes follow (R53). -/
theorem operandOf_bytes (o : Operand) (rest : List Byte) :
    operandOf o.mode ((o.bytes ++ rest).getD 0 0) ((o.bytes ++ rest).getD 1 0) = some o := by
  rcases o with _ | b | f
  · rfl
  · rfl
  · cases f with
    | zeroPage | zeroPageX | zeroPageY | xIndexedIndirect | indirectYIndexed => rfl
    | absolute w | absoluteX w | absoluteY w =>
      have hword : wordOf (highByte w) (lowByte w) = w := wordOf_high_low w
      simp [AddrForm.bytes, Operand.bytes, Operand.mode, AddrForm.mode, operandOf, hword]

/-- The bytes of an assembled operand are those it was assembled from, as many as it has (R52, R53). -/
theorem bytes_prefix_of_operandOf {m : Mode} {b1 b2 : Byte} {o : Operand} (h : operandOf m b1 b2 = some o) :
    o.bytes <+: [b1, b2] := by
  cases m with
  | implicit | immediate | zeroPage | zeroPageX | zeroPageY | xIndexedIndirect | indirectYIndexed =>
    cases h
    simp [Operand.bytes, AddrForm.bytes]
  | absolute | absoluteX | absoluteY =>
    cases h
    simp [Operand.bytes, AddrForm.bytes, lowByte_wordOf, highByte_wordOf]
  | accumulator | relative | indirect => cases h

/-! ## Decoding three bytes -/

theorem decodePair_eq_ok {op b1 b2 : Byte} {mn : Mnemonic} {m : Mode} {i : Instr}
    (h : decodePair op mn m b1 b2 = .ok i) : i.mnemonic = mn ∧ operandOf m b1 b2 = some i.operand := by
  unfold decodePair at h
  split at h
  next j hj =>
    cases h
    obtain ⟨o, ho, hassemble⟩ := Option.bind_eq_some_iff.mp hj
    obtain ⟨hmn, rfl⟩ := assemble_eq_some hassemble
    exact ⟨hmn, ho⟩
  next => cases h

/-- Three bytes that decode to an instruction begin with its encoding. -/
theorem encode_prefix_of_decodeBytes {op b1 b2 : Byte} {i : Instr} (h : decodeBytes op b1 b2 = .ok i) :
    encode i <+: [op, b1, b2] := by
  unfold decodeBytes at h
  split at h
  next mn m hop =>
    obtain ⟨rfl, hoperand⟩ := decodePair_eq_ok h
    have hmode : i.mode = m := operandOf_mode hoperand
    cases decodeOpcode_injective (hmode ▸ decodeOpcode_opcode i) hop
    exact (List.prefix_cons_inj _).mpr (bytes_prefix_of_operandOf hoperand)
  next => cases h

theorem decodeBytes_encode (i : Instr) (rest : List Byte) :
    decodeBytes i.opcode ((i.operand.bytes ++ rest).getD 0 0) ((i.operand.bytes ++ rest).getD 1 0) = .ok i := by
  have hoperand : operandOf i.mode ((i.operand.bytes ++ rest).getD 0 0) ((i.operand.bytes ++ rest).getD 1 0)
      = some i.operand := operandOf_bytes i.operand rest
  simp only [decodeBytes, decodeOpcode_opcode, decodePair, hoperand, Option.bind_some, assemble_self]

/-! ## Decoding a list -/

theorem decode_cons_of_decodeBytes {op : Byte} {tail : List Byte} {i : Instr}
    (h : decodeBytes op (tail.getD 0 0) (tail.getD 1 0) = .ok i) :
    decode (op :: tail) =
      if i.length ≤ (op :: tail).length then .ok i ((op :: tail).drop i.length) else .truncated := by
  simp only [decode, h]

/-- A list decodes to the instruction that its first three bytes decode to, missing ones read as zero, where it is as
long as that; what follows is left. -/
theorem decodeBytes_of_decode_cons {op : Byte} {tail rest : List Byte} {i : Instr}
    (h : decode (op :: tail) = .ok i rest) :
    decodeBytes op (tail.getD 0 0) (tail.getD 1 0) = .ok i ∧
      i.length ≤ (op :: tail).length ∧ rest = (op :: tail).drop i.length := by
  cases hdecode : decodeBytes op (tail.getD 0 0) (tail.getD 1 0) with
  | ok j =>
    rw [decode_cons_of_decodeBytes hdecode] at h
    split at h
    next hle =>
      cases h
      exact ⟨rfl, hle, rfl⟩
    next => cases h
  | invalidOpcode | unsupportedPair => simp only [decode, hdecode, reduceCtorEq] at h

/-- Settles O1: the opcode byte gives back the pair, its operand bytes the operand, and the length is the encoding's. -/
theorem decodeOfEncode : Obligations.DecodeOfEncode := by
  intro i rest
  have hcons : encode i ++ rest = i.opcode :: (i.operand.bytes ++ rest) := rfl
  have hle : i.length ≤ (encode i ++ rest).length := by
    rw [← encode_length, List.length_append]
    exact Nat.le_add_right _ _
  rw [hcons, decode_cons_of_decodeBytes (decodeBytes_encode i rest), ← hcons, if_pos hle, ← encode_length,
    List.drop_left]

/-- Settles O2: with two zero bytes after it the list begins both with itself and with the encoding, and is the longer
of the two. -/
theorem encodeOfDecode : Obligations.EncodeOfDecode := by
  intro bytes i rest h
  cases bytes with
  | nil => cases h
  | cons op tail =>
    obtain ⟨hdecode, hle, rfl⟩ := decodeBytes_of_decode_cons h
    have hthree : [op, tail.getD 0 0, tail.getD 1 0] <+: (op :: tail) ++ [0, 0] := by
      rcases tail with _ | ⟨_, _ | ⟨_, _⟩⟩ <;> simp
    have hencode : encode i <+: op :: tail := List.prefix_of_prefix_length_le
      ((encode_prefix_of_decodeBytes hdecode).trans hthree) (List.prefix_append _ _) (encode_length i ▸ hle)
    rw [← encode_length i]
    exact (List.prefix_iff_eq_append.mp hencode).symm

/-- Settles O6: each word is written out and decoded through the opcode map. -/
theorem writtenOutWordsDecode : Obligations.WrittenOutWordsDecode := by
  unfold Obligations.WrittenOutWordsDecode
  decide

end Sys2Proof

namespace Sys2Proof.Machine

/-! ## The fetch -/

theorem decodeBytes_of_fetchInstr {s : State} {i : Instr} (h : fetchInstr s = .instr i) :
    decodeBytes (s.mem.read s.pc) (s.mem.read (s.pc + 1)) (s.mem.read (s.pc + 2)) = .ok i := by
  unfold fetchInstr at h
  obtain ⟨j, hdecode, hfetch⟩ | ⟨_, _, hfetch⟩ | ⟨_, _, _, _, hfetch⟩ := handOver_cases s.pc
    (decodeBytes (s.mem.read s.pc) (s.mem.read (s.pc + 1)) (s.mem.read (s.pc + 2)))
  · cases h.symm.trans hfetch
    exact hdecode
  · cases h.symm.trans hfetch
  · cases h.symm.trans hfetch

/-- Settles O7: the encoding begins the three bytes from PC on, and it has the instruction's length. -/
theorem fetchReadsTheEncodingAtPc : Obligations.FetchReadsTheEncodingAtPc := by
  intro s i h k hk
  rw [← encode_length] at hk
  have hprefix := encode_prefix_of_decodeBytes (decodeBytes_of_fetchInstr h)
  have hbyte := List.prefix_iff_getElem?.mp hprefix k hk
  rw [List.getElem?_eq_getElem hk, ← hbyte]
  match k, hk.trans_le hprefix.length_le with
  | 0, _ => simp
  | 1, _ | 2, _ => rfl

end Sys2Proof.Machine
end

section
/-! PROOFS. The canonical form of memory (log 6): a canonical list is the one strictly rising list of the cells that
differ from what an unlisted address reads as. -/

namespace Sys2Proof.Machine

theorem Memory.wf_iff (m : Memory) : Memory.wf m = true ↔
    m.Pairwise (fun cell later => cell.1 < later.1) ∧ ∀ cell ∈ m, cell.1 < 65536 ∧ cell.2 ≠ Config.erased := by
  induction m with
  | nil => simp [Memory.wf]
  | cons cell rest ih =>
    rw [Memory.wf_cons, ih, List.pairwise_cons, List.forall_mem_cons]
    tauto

theorem Memory.lookup_of_mem {m : Memory} (hm : m.Pairwise fun cell later => cell.1 < later.1) {cell : Host.Cell}
    (h : cell ∈ m) : m.lookup cell.1 = cell.2 := by
  induction m with
  | nil => cases h
  | cons head rest ih =>
    obtain ⟨hhead, hrest⟩ := List.pairwise_cons.mp hm
    obtain rfl | hmem := List.mem_cons.mp h
    · simp [Memory.lookup]
    · rw [Memory.lookup, if_neg (hhead cell hmem).ne, ih hrest hmem]

theorem Memory.mem_of_lookup_ne {m : Memory} {k : Nat} (h : m.lookup k ≠ Config.erased) : (k, m.lookup k) ∈ m := by
  induction m with
  | nil => exact absurd rfl h
  | cons head rest ih =>
    rw [Memory.lookup] at h ⊢
    by_cases hk : head.1 = k
    · subst hk
      simp
    · rw [if_neg hk] at h ⊢
      exact List.mem_cons_of_mem _ (ih h)

/-- The cells of a canonical memory are the addresses that do not read as after reset, each with its byte. -/
theorem Memory.mem_iff_read {m : Memory} (hm : Memory.wf m = true) (cell : Host.Cell) :
    cell ∈ m ↔ ∃ a : Addr, m.read a ≠ Config.erased ∧ cell = (a.toNat, m.read a) := by
  obtain ⟨hrising, hcells⟩ := (Memory.wf_iff m).mp hm
  constructor
  · intro hmem
    obtain ⟨hbound, hbyte⟩ := hcells cell hmem
    have haddr : (BitVec.ofNat 16 cell.1).toNat = cell.1 := Nat.mod_eq_of_lt hbound
    have hread : m.read (BitVec.ofNat 16 cell.1) = cell.2 := by
      rw [Memory.read, haddr, Memory.lookup_of_mem hrising hmem]
    exact ⟨BitVec.ofNat 16 cell.1, hread ▸ hbyte, by rw [haddr, hread]⟩
  · rintro ⟨a, hread, rfl⟩
    exact Memory.mem_of_lookup_ne hread

/-- Settles O10: the same bytes give the same cells, and strictly rising lists of the same cells are one list. -/
theorem canonicalMemoriesAreEqualWhenTheirBytesAre : Obligations.CanonicalMemoriesAreEqualWhenTheirBytesAre := by
  intro m m' hm hm' hread
  obtain ⟨hrising, -⟩ := (Memory.wf_iff m).mp hm
  obtain ⟨hrising', -⟩ := (Memory.wf_iff m').mp hm'
  have hcells : ∀ cell, cell ∈ m ↔ cell ∈ m' := fun cell => by
    simp only [Memory.mem_iff_read hm, Memory.mem_iff_read hm', hread]
  have hnodup : ∀ l : Memory, l.Pairwise (fun cell later => cell.1 < later.1) → l.Nodup :=
    fun l hl => hl.imp fun hlt heq => hlt.ne (congrArg Prod.fst heq)
  have hperm : m.Perm m' := (List.perm_ext_iff_of_nodup (hnodup m hrising) (hnodup m' hrising')).mpr hcells
  exact hperm.eq_of_pairwise (fun _ _ _ _ hlt hgt => absurd hgt hlt.asymm) hrising hrising'

end Sys2Proof.Machine
end

section
/-! PROOFS. The whole next state of the logical instructions (R150 to R153), of JSR and BRK (R160, R161) and of the flag
instructions (R170 to R176). -/

namespace Sys2Proof.Machine

/-! ## AND, ORA, EOR -/

/-- The ALU operation of the logical instructions. -/
def logicalOp : Mnemonic → Option AluOp
  | .and => some .and
  | .ora => some .or
  | .eor => some .xor
  | _ => none

theorem exec_eq_combineA {i : Instr} {op : AluOp} {src : Source} (hlogical : logicalOp i.mnemonic = some op)
    (hop : i.operand = .source src) : exec i = combineA op src := by
  cases i with
  | andImm | andZp | andZpX | andAbs | andAbsX | andAbsY | andIndX | andIndY
  | oraImm | oraZp | oraZpX | oraAbs | oraAbsX | oraAbsY | oraIndX | oraIndY
  | eorImm | eorZp | eorZpX | eorAbs | eorAbsX | eorAbsY | eorIndX | eorIndY =>
    cases hlogical
    cases hop
    rfl
  | _ => cases hlogical

theorem exec_logical {i : Instr} {op : AluOp} {src : Source} (hlogical : logicalOp i.mnemonic = some op)
    (hop : i.operand = .source src) (s : State) :
    exec i s = .next { s with
      a := alu op s.a (readOperand src s), flags := znFrom (alu op s.a (readOperand src s)) s.flags,
      pc := s.pc + lengthOf i } := by
  rw [exec_eq_combineA hlogical hop, combineA_next, setZN_eq_znFrom, lengthOf_of_source hop]

/-- Settles O28: the value of each clause is the ALU's, by the operation of the mnemonic. -/
theorem logicalOpsCombineA : Obligations.LogicalOpsCombineA := by
  rintro i src s v hop (⟨hmn, rfl⟩ | ⟨hmn, rfl⟩ | ⟨hmn, rfl⟩)
  · exact exec_logical (congrArg logicalOp hmn) hop s
  · exact exec_logical (congrArg logicalOp hmn) hop s
  · exact exec_logical (congrArg logicalOp hmn) hop s

/-! ## BIT -/

theorem exec_eq_bitTestA {i : Instr} {f : AddrForm} (hmn : i.mnemonic = .bit)
    (hop : i.operand = .source (.memory f)) : exec i = bitTestA f := by
  cases i with
  | bitZp | bitAbs =>
    cases hop
    rfl
  | _ => cases hmn

/-- The three flags of BIT by the value of the operand (R102). -/
theorem bitFlags_eq (a v : Byte) (f : Flags) : bitFlags a v f = { f with
    z := decide (a &&& v = 0), v := decide (64 ≤ v.toNat % 128), n := decide (128 ≤ v.toNat) } := by
  have hv : v.getLsbD 6 = decide (64 ≤ v.toNat % 128) := by
    rw [Bool.eq_iff_iff, getLsbD_six_iff, decide_eq_true_iff]
  have hn : v.getLsbD 7 = decide (128 ≤ v.toNat) := by
    rw [Bool.eq_iff_iff, getLsbD_seven_iff, decide_eq_true_iff]
  rw [bitFlags, hv, hn]
  rfl

/-- Settles O29: BIT is one flag command on the byte read. -/
theorem bitTestsTheOperand : Obligations.BitTestsTheOperand := by
  rintro i f s _ hop hmn rfl
  rw [exec_eq_bitTestA hmn hop, bitTestA_next, bitFlags_eq, lengthOf_of_source hop]
  rfl

/-! ## JSR and BRK -/

theorem exec_jsrAbs_of_noPush {s : State} (h : s.params.jsrPushesReturn = false) (w : Addr) :
    exec (.jsrAbs w) s = .next { s with pc := w } := by
  simp [exec, execJsrAbs, h, effectiveAddress]

theorem exec_jsrAbs_of_push {s : State} (h : s.params.jsrPushesReturn = true) (w : Addr) :
    exec (.jsrAbs w) s = .next { pushReturn s with pc := w } := by
  simp [exec, execJsrAbs, h, effectiveAddress]

/-- A pushing JSR leaves its two `storedByte`s below the old SP, and every other byte. -/
theorem exec_jsrAbs_read {s t : State} {w : Addr} (h : s.params.jsrPushesReturn = true)
    (hexec : exec (.jsrAbs w) s = .next t) (k : Addr) :
    t.mem.read k = if k ∈ [stackAddr s.sp, stackAddr (s.sp - 1)] then storedByte (.jsrAbs w) s k
      else s.mem.read k := by
  rw [exec_mem hexec, Memory.read_writeAll, storedAddresses_jsr, if_pos h]

/-- Settles O30: with the push, the two stack addresses hold the high and the low byte of `pc0 + 2`. -/
theorem jsrJumpsUnderBothParameterValues : Obligations.JsrJumpsUnderBothParameterValues := by
  intro w s
  refine ⟨fun hoff => exec_jsrAbs_of_noPush hoff w, fun hon => ?_⟩
  have hexec := exec_jsrAbs_of_push hon w
  have hread := exec_jsrAbs_read hon hexec
  have hsp : s.sp - 1 - 1 = s.sp - 2 := BitVec.sub_sub s.sp 1 1
  refine ⟨_, hexec, ?_, ?_, ?_, fun k hhigh hlow => ?_⟩
  · rw [pushReturn_eq, hsp]
  · rw [hread, if_pos (by simp)]
    exact if_pos rfl
  · rw [hread, if_pos (by simp)]
    exact if_neg (stackAddr_sub_one_ne s.sp)
  · rw [hread, if_neg (by simp only [List.mem_cons, hhigh, hlow, List.not_mem_nil, or_self, not_false_iff])]

/-- BRK is the BRK halt (R161). -/
theorem exec_brk (s : State) : exec .brk s = .next (brkHalt s) := rfl

/-- Settles O31: the fields the BRK halt changes are B, PC and the run state. -/
theorem brkHalts : Obligations.BrkHalts := exec_brk

/-! ## The flag instructions -/

/-- Settles O32: each of the seven is one flag operation. -/
theorem flagInstructionsSetOneFlag : Obligations.FlagInstructionsSetOneFlag := by
  intro s
  exact ⟨flagOp_next .c false s, flagOp_next .d false s, flagOp_next .i false s, flagOp_next .v false s,
    flagOp_next .c true s, flagOp_next .d true s, flagOp_next .i true s⟩

end Sys2Proof.Machine
end

section
/-! PROOFS. A push followed by a pull (properties S-P5 and S-P6 of the source). -/

namespace Sys2Proof.Machine

/-- A pull reads the byte pushed last: SP comes back to where the push wrote it (R130, R131). -/
theorem State.pulledByte_push (s : State) (v : Byte) : (s.push v).pulledByte = v := by
  rw [State.pulledByte, State.push_sp, State.push_mem, BitVec.sub_add_cancel, Memory.read_write_same]

/-- Settles O40: the byte pulled is the A pushed. -/
theorem phaThenPlaRestoresA : Obligations.PhaThenPlaRestoresA := by
  intro s
  have hpulled : ({ s.push s.a with pc := s.pc + 1 } : State).pulledByte = s.a := s.pulledByte_push s.a
  refine ⟨_, _, exec_pha s, exec_pla _, hpulled, BitVec.sub_add_cancel s.sp 1, ?_⟩
  rw [hpulled, setZN_eq_znFrom]
  rfl

/-- Settles O41: the byte pulled is the status byte pushed, which unpacks to the flags it was packed from (R16). -/
theorem phpThenPlpRestoresFlags : Obligations.PhpThenPlpRestoresFlags := by
  intro s
  have hpulled : ({ s.push (statusByte s) with pc := s.pc + 1 } : State).pulledByte = statusByte s :=
    s.pulledByte_push (statusByte s)
  have hflags : unpackP (statusByte s) = s.flags := unpackP_packP s.params.pBit5 s.flags
  refine ⟨_, _, exec_php s, exec_plp _, ?_⟩
  rw [hpulled, hflags]
  simp [State.pulled, State.push]

end Sys2Proof.Machine
end

section
/-! PROOFS. Completion, the two faults and the invariant (R77, R181 to R189). -/

namespace Sys2Proof

/-- An illegal pair is rejected by name, whether its tag has no rule or the executor does not implement it (R182). -/
theorem decodePair_of_illegalPair {mn : Mnemonic} {m : Mode} (h : legalPair mn m = false) (op b1 b2 : Byte) :
    decodePair op mn m b1 b2 = .unsupportedPair op mn m := by
  have hnone : (operandOf m b1 b2).bind (assemble mn) = none := by
    cases hoperand : operandOf m b1 b2 with
    | none => rfl
    | some o =>
      have hassemble : (assemble mn o).isSome = false := by
        rw [assemble_isSome, operandOf_mode hoperand, h]
      exact Option.isNone_iff_eq_none.mp (Option.isSome_eq_false_iff.mp hassemble)
  rw [decodePair, hnone]

end Sys2Proof

namespace Sys2Proof.Machine

/-- Settles O33: PHP pushes a byte, and every other instruction has an effect and a flag command. -/
theorem everyInstructionCompletes : Obligations.EveryInstructionCompletes := exec_completes

/-! ## The faults -/

/-- Settles O45: the interface hands over the addressing fault for a pair that no operand makes an instruction. -/
theorem illegalPairTakesUnsupportedAddressingFault : Obligations.IllegalPairTakesUnsupportedAddressingFault := by
  intro op mn m s hillegal
  rw [executePair, fetchPair, decodePair_of_illegalPair hillegal]
  rfl

/-- Settles O44: a listed byte has no decoding, so the fetch traps and the step is the fault entry. -/
theorem unassignedOpcodeTakesDecodeFault : Obligations.UnassignedOpcodeTakesDecodeFault := by
  intro s hrun hbyte
  rw [step_running hrun, fetchInstr_of_unassigned ((unassignedBytesAreTheListed _).mpr hbyte)]
  rfl

theorem decodeOpcode_of_fetchInstr_trap {s : State} {record : FaultRecord} (h : fetchInstr s = .trap record) :
    decodeOpcode (s.mem.read s.pc) = none := by
  rw [Option.eq_none_iff_forall_not_mem]
  rintro ⟨mn, m⟩ hop
  obtain ⟨j, -, -, -, hfetch⟩ := fetchInstr_of_assigned hop
  cases h.symm.trans hfetch

/-- Settles O48: HALTED nothing changes, an effect keeps the record, and the fetch traps by the DecodeFault only. -/
theorem faultingStepChangesOnlyTheRecord : Obligations.FaultingStepChangesOnlyTheRecord := by
  intro s t hstep hfault
  obtain ⟨-, rfl⟩ | ⟨-, i, -, hexec⟩ | ⟨hrun, record, hfetch, rfl⟩ := step_cases hstep
  · exact absurd rfl hfault
  · obtain ⟨hkept, -⟩ := controlStateChangesOnlyByBrk i s t hexec
    exact absurd hkept hfault
  · refine ⟨hrun, decodeOpcode_of_fetchInstr_trap hfetch, ?_⟩
    rw [decodeFault_of_fetchInstr_trap hfetch]
    rfl

/-! ## Nothing loaded -/

/-- Settles O53: the three bytes at the reset PC read as zero, which is BRK with no operand. -/
theorem emptyMachineRunsBrk : Obligations.EmptyMachineRunsBrk := by
  intro p
  have hdecode : decodeBytes 0 0 0 = .ok .brk := by decide
  rw [step_of_decodeBytes (State.resetWith_runState p) hdecode, exec_brk]
  rfl

/-! ## The invariant -/

theorem State.inv_iff (s : State) : s.inv = true ↔ Memory.wf s.mem = true ∧ s.stands = true := by
  rw [State.inv, Bool.and_eq_true]

/-- A RUNNING machine stands when no fault is on record: the first row of R189. -/
theorem State.stands_of_running {s : State} (h : s.runState = .running) : s.stands = true ↔ s.fault = .none := by
  rw [State.stands, h]
  cases s.fault <;> simp

/-- The BRK halt stands in the second row of R189. -/
theorem brkHalt_stands {s : State} (h : s.fault = .none) : (brkHalt s).stands = true := by
  simp [State.stands, h]

/-- A DecodeFault entry stands in the third row of R189 (D10). -/
theorem raiseFault_decodeFault_stands (op : Byte) (s : State) :
    (raiseFault (.decodeFault op s.pc) s).stands = true := by
  simp [State.stands]

theorem Memory.wf_writeAll (m : Memory) (f : Addr → Byte) (ks : List Addr) (h : Memory.wf m = true) :
    Memory.wf (m.writeAll f ks) = true := by
  induction ks generalizing m with
  | nil => exact h
  | cons k ks ih => exact ih (m.write k (f k)) (Memory.wf_write m k (f k) h)

theorem exec_stands {i : Instr} {s t : State} (hrun : s.runState = .running) (hfault : s.fault = .none)
    (h : exec i s = .next t) : t.stands = true := by
  obtain ⟨hrecord, -, hkept, -⟩ := controlStateChangesOnlyByBrk i s t h
  by_cases hbrk : i = .brk
  · subst hbrk
    cases (exec_brk s).symm.trans h
    exact brkHalt_stands hfault
  · have hrun' : t.runState = .running := (hkept fun hmn => hbrk (Instr.eq_brk_of_mnemonic hmn)).trans hrun
    exact (State.stands_of_running hrun').mpr (hrecord.trans hfault)

/-- Settles O50: HALTED nothing changes; an effect writes bytes one by one and is the BRK halt or stays RUNNING with no
record; a fault entry leaves memory and PC. -/
theorem stepKeepsTheInvariant : Obligations.StepKeepsTheInvariant := by
  intro s t hinv hstep
  obtain ⟨hmem, hstands⟩ := s.inv_iff.mp hinv
  refine t.inv_iff.mpr ?_
  obtain ⟨-, rfl⟩ | ⟨hrun, i, -, hexec⟩ | ⟨-, record, hfetch, rfl⟩ := step_cases hstep
  · exact ⟨hmem, hstands⟩
  · have hfault := (State.stands_of_running hrun).mp hstands
    exact ⟨exec_mem hexec ▸ Memory.wf_writeAll _ _ _ hmem, exec_stands hrun hfault hexec⟩
  · rw [decodeFault_of_fetchInstr_trap hfetch]
    exact ⟨hmem, raiseFault_decodeFault_stands _ s⟩

end Sys2Proof.Machine
end
